-- ==== Sys2Proof/Word.lean ====
section
/-! DEFINITION. The word types of the BRC408 (spec/00 Conventions): octets, samples, memory words, management words,
ticks, microseconds and memory word addresses. -/

namespace Sys2Proof

/-- Eight bits on the link. -/
abbrev Octet := BitVec 8

/-- A signed 16-bit two's-complement sample. -/
abbrev Sample := BitVec 16

/-- One 16-bit word of the SDRAM. -/
abbrev MemWord := BitVec 16

/-- A 32-bit word carried in a management request or response. -/
abbrev MgmtWord := BitVec 32

/-- One count of the acquisition system's timestamp; arithmetic is modulo 2^32. -/
abbrev Tick := BitVec 32

/-- A value of the microsecond counter, which wraps at 2^32 (R179). -/
abbrev Micros := BitVec 32

/-- A memory word address, 0 to 16,777,215: the SDRAM holds exactly the words these 24 bits name. -/
abbrev MemAddr := BitVec 24

/-- The octets of a frame between START and END, CRC included. -/
abbrev Frame := List Octet

end Sys2Proof
end

