-- ==== Sys2Proof/Syntax.lean ====
section
/-! DEFINITION. The commands of the block: one constructor for each row of spec/opcode_table.json. -/

namespace Sys2Proof

/-- The two link ports: U faces the acquisition side, D the collector (spec/00). -/
inductive Port
  | u
  | d
deriving DecidableEq, Repr

/-- A symbol as a receiver sees it (R147). -/
inductive Symbol
  /-- a data symbol, carrying one octet -/
  | data (octet : Octet)
  /-- IDLE -/
  | idle
  /-- START, which opens a frame -/
  | startFrame
  /-- END, which closes a frame -/
  | endFrame
  /-- TRAIN, with the phase marker as seen and the lock flag -/
  | train (marker : Bool) (lock : Bool)
  /-- a symbol that decodes as none of the five kinds -/
  | invalid
deriving DecidableEq, Repr

/-- The commands. Those that execute a request carry no operand of their own: space, index, count, address, data words,
command code and argument stand in the request that the oldest WAITING context holds (R171). -/
inductive Instr
  /-- POWER_ON_RESET (R77 and every chapter's reset rule): the RESET pin, with the ADDR strap levels (R164). -/
  | powerOnReset (straps : BitVec 6)
  /-- TAP_VALUE (R149): the symbols that complete the 16 observed at the present tap. -/
  | tapValue (port : Port) (symbols : List Symbol)
  /-- PAUSE_END (R150): what is left of the sweep pause passes. -/
  | pauseEnd (port : Port)
  /-- LOCKED_SYMBOL (R151). -/
  | lockedSymbol (port : Port) (symbol : Symbol)
  /-- RECEIVER_UP (R151): the symbol that brings the valid run to 8. -/
  | receiverUp (port : Port) (symbol : Symbol)
  /-- TAP_PROVED_FALSE (R151): the invalid symbol that brings the invalid run of a LOCKED receiver to 16. -/
  | tapProvedFalse (port : Port)
  /-- SYMBOL_RECEIVED (R154, and R149 and R151 for a receiver that is not UP). An END that completes a frame at the U port leaves the
  frame's samples to be handed on turn by turn (log entry 19). -/
  | symbolReceived (port : Port) (symbol : Symbol)
  /-- OVERSIZE_FRAME (R155): the 79th octet of the frame under reception. -/
  | oversizeFrame (port : Port) (octet : Octet)
  /-- LOSS_OF_ALIGNMENT (R152): the TRAIN or invalid symbol that brings the invalid run of an UP receiver to 16. -/
  | lossOfAlignment (port : Port) (symbol : Symbol)
  /-- FRAME_COMPLETED_U (R157): END inside a frame at the U port, with the handing on of its samples; with no frame open there, the
  next turn of a frame whose END came as SYMBOL_RECEIVED (R14, log entry 19). -/
  | frameCompletedU
  /-- FRAME_COMPLETED_D (R158): END inside a frame at the D port. -/
  | frameCompletedD
  /-- READ (R174). -/
  | read
  /-- FETCH (R176). -/
  | fetch
  /-- WRITE (R175). -/
  | write
  /-- WRITE_CHANNEL_MAP (R4). -/
  | writeChannelMap
  /-- WRITE_WATCH (R20). -/
  | writeWatch
  /-- WRITE_SLOT (R54). -/
  | writeSlot
  /-- WRITE_TIMING_SET (R128). -/
  | writeTimingSet
  /-- WRITE_COUNT_TABLE (R93). -/
  | writeCountTable
  /-- WRITE_ENABLE_SET (R135). -/
  | writeEnableSet
  /-- WRITE_ORDER_LIST (R133). -/
  | writeOrderList
  /-- WRITE_EXPRESS_CLASS (R134). -/
  | writeExpressClass
  /-- WRITE_CHECK_MODE (R168). -/
  | writeCheckMode
  /-- ARM_SLOT (R58). -/
  | armSlot
  /-- DISARM_SLOT (R75). -/
  | disarmSlot
  /-- FORCE_TRIGGER (R70). -/
  | forceTrigger
  /-- RELEASE_HALF (R89). -/
  | releaseHalf
  /-- ENABLE_WATCH (R34). -/
  | enableWatch
  /-- DISABLE_WATCH (R35). -/
  | disableWatch
  /-- GATE (R76). -/
  | gate
  /-- ACK_NOTICE (R142). -/
  | ackNotice
  /-- CLEAR_FAULT (R167). -/
  | clearFault
  /-- MEM_START (R119). -/
  | memStart
  /-- MEM_HOLD (R121). -/
  | memHold
  /-- RESET_CAPTURE (R178). -/
  | resetCapture
  /-- REALIGN (R163). -/
  | realign
  /-- BURST_END (R102). -/
  | burstEnd
  /-- REFRESH_DUE (R110). -/
  | refreshDue
  /-- REFRESH_END (R111). -/
  | refreshEnd
  /-- FETCH_READ_END (R114). -/
  | fetchReadEnd
  /-- COUNT_TABLE_WRITE_END (R115). -/
  | countTableWriteEnd
  /-- INIT_SEQUENCE_END (R120). -/
  | initSequenceEnd
  /-- CLOSING_OPERATION_END (R123). -/
  | closingOperationEnd
  /-- EXIT_SEQUENCE_END (R127). -/
  | exitSequenceEnd
  /-- HOLDOFF_EXPIRY (R141): what is left of the holdoff time passes. -/
  | holdoffExpiry
  /-- D_FRAME_SENT (R161): a frame's END is sent at D-out. -/
  | dFrameSent
  /-- U_FRAME_SENT (R162): a frame's END is sent at U-out. -/
  | uFrameSent
deriving DecidableEq, Repr

end Sys2Proof
end

