-- ==== Sys2Proof/Decode.lean ====
section
/-! DEFINITION. The command a word spells. spec/opcode_table.json gives no row any bits ("fields": [] in all 47 rows), so
no word spells a command and every word is refused (log entry 20). The octets of frames on the link are read in
Machine/Operands.lean. -/

namespace Sys2Proof

/-- The command whose bits are `w`: none for every word, since no row of the table has bits. -/
def decodeTableWord (_nbits _w : Nat) : Option Instr :=
  none

end Sys2Proof
end

