-- ==== Sys2Proof/Config.lean ====
section
/-! DEFINITION. Constants of the part and its one free value. -/

namespace Sys2Proof.Config

/-- Memory words in the SDRAM (R104). -/
def memoryWords : Nat := 16777216

/-- Entries the write queue can hold (R99). -/
def queueCapacity : Nat := 128

/-- Queue length at which bursts go ahead of FETCH reads (R108). -/
def queueHighWater : Nat := 64

/-- Entries one burst can take (R101). -/
def burstLimit : Nat := 16

/-- Frames each forward queue can hold (R159). -/
def forwardCapacity : Nat := 8

/-- U-to-D queue length at which the stream goes ahead of the part's own frames (R161). -/
def forwardHighWater : Nat := 6

/-- Octets a frame may hold between START and END (R155). -/
def frameLimit : Nat := 78

/-- Turns in which one sample is handed on: one for each of the 32 watches, then one for the bound slot (R14). -/
def sampleTurns : Nat := 33

/-- Symbols observed at each tap of a sweep (R149). -/
def tapSymbols : Nat := 16

/-- Microseconds a failed sweep pauses (R150). -/
def sweepPause : Nat := 1000

/-- Valid run at which a LOCKED receiver goes to UP (R151). -/
def validRunLimit : Nat := 8

/-- Invalid run at which a receiver loses its tap or its alignment (R151, R152). -/
def invalidRunLimit : Nat := 16

/-- The largest measurement result, in ticks (R44). -/
def measurementLimit : Nat := 16777215

/-- The broadcast destination, and the strap value of an unaddressed part (R164). -/
def broadcastAddress : BitVec 6 := 63

/-- Identity word: family code 2C51h and revision 0001h (11.4). -/
def identity : MgmtWord := 0x2C510001

/-- The node address of `State.reset`.
DESIGN CHOICE (log entry 6), unsafe: the straps decide it and the spec names no strap value. -/
def resetStraps : BitVec 6 := 0

/-- FREE VALUE (log entry 5): what an SDRAM word never written since power-on reset returns (R113).
It has no body, so no proof can rest on a value of it; the first argument is a plain count in State that advances
with every FETCH read, so two reads of one such word need not agree. -/
opaque unwrittenWord : Nat → MemAddr → MemWord

end Sys2Proof.Config
end

