-- ==== Sys2Proof/Machine/State.lean ====
section
/-! DEFINITION. The state of the BRC408 as plain data, block by block in the order of spec/01 to spec/10, the reasons a step
can stop, and the state after power-on reset. -/

namespace Sys2Proof.Machine

/-! ## Channel map (R1) -/

/-- Whether an entry has taken a frame since it was last written or reset (R1). -/
inductive SyncState
  | unsynced
  | synced
deriving DecidableEq, Repr

/-- A channel map entry: configuration, then live fields (R1). -/
structure MapEntry where
  valid : Bool
  sourceId : BitVec 12
  interval : BitVec 16
  bound : Option (Fin 8)
  sync : SyncState
  expected : BitVec 8
  lastTimestamp : Tick
deriving DecidableEq, Repr

/-- A frame being handed on (R14): the entry that took it, the slot bound when it was taken (R9), the samples not yet handed to all,
each with its time (R13), and whose turn it is with the first of them: watch `turn`, or the bound slot after the last watch. -/
structure Handing where
  entry : Fin 64
  bound : Option (Fin 8)
  turn : Nat
  rest : List (Sample × Tick)
deriving DecidableEq, Repr

/-! ## Watch table (R16, R17, R41) -/

/-- Watch kinds (R16). -/
inductive WatchKind
  | above
  | below
  | bandOut
  | rise
  | fall
  | width
  | period
deriving DecidableEq, Repr

/-- Sensitivity (R16). -/
inductive Sensitivity
  | edge
  | level
deriving DecidableEq, Repr

/-- Polarity of a measuring watch (R16, R40). -/
inductive Polarity
  | rising
  | falling
deriving DecidableEq, Repr

/-- Watch states (R24). -/
inductive WatchState
  | off
  | unprimed
  | clear
  | qualifying
  | asserted
  | measuring
deriving DecidableEq, Repr

/-- Edge phase of a measuring watch (R41). -/
inductive EdgePhase
  | away
  | back
deriving DecidableEq, Repr

/-- The last measurement result (R51). -/
inductive LastResult
  | none
  | result (ticks : BitVec 24)
  | overrun
deriving DecidableEq, Repr

/-- What became of a watch's last trigger request (R33). -/
inductive RequestOutcome
  | none
  | taken
  | retriggered
  | refusedIdle
  | refusedStalled
  | gated
deriving DecidableEq, Repr

/-- A watch's configuration fields (R16). -/
structure WatchConfig where
  channel : Fin 64
  kind : WatchKind
  thresholdA : Sample
  thresholdB : Sample
  hysteresis : BitVec 15
  sensitivity : Sensitivity
  qualify : Nat
  polarity : Polarity
  windowMin : BitVec 24
  windowMax : BitVec 24
  target : Fin 8
deriving DecidableEq, Repr

/-- A watch: configuration and live fields (R16, R17, R41). -/
structure Watch where
  config : WatchConfig
  state : WatchState
  progress : Nat
  startTime : Tick
  lastResult : LastResult
  lastFire : Tick
  lastOutcome : RequestOutcome
  phase : EdgePhase
deriving DecidableEq, Repr

/-! ## Capture slots, halves and records (R53, R57, R80) -/

/-- Half A is half 0 and half B is half 1 (R79). -/
inductive Half
  | a
  | b
deriving DecidableEq, Repr

/-- Half states (R79). -/
inductive HalfState
  | empty
  | active
  | sealing
  | full
deriving DecidableEq, Repr

/-- The record of a half (R80). -/
structure CaptureRecord where
  state : HalfState
  captureNumber : BitVec 16
  triggerSource : Nat
  triggerTime : Tick
  start : Nat
  preCount : Nat
  postCount : Nat
  filled : Nat
  retriggers : Nat
  gaps : Nat
  lost : Nat
  extended : Bool
  clipped : Bool
  truncated : Bool
  lastSampleTime : Tick
deriving DecidableEq, Repr

/-- Retrigger policy (R53). -/
inductive RetriggerPolicy
  | ignore
  | extend
deriving DecidableEq, Repr

/-- Full policy (R53). -/
inductive FullPolicy
  | stop
  | overwrite
deriving DecidableEq, Repr

/-- Slot states (R56). -/
inductive SlotState
  | idle
  | armed
  | post
  | stalled
deriving DecidableEq, Repr

/-- A slot's configuration: region base, half size S, pre length P, post length N, early margin E and the two policies (R53). -/
structure SlotConfig where
  base : Nat
  size : Nat
  pre : Nat
  post : Nat
  early : Nat
  retrigger : RetriggerPolicy
  full : FullPolicy
deriving DecidableEq, Repr

/-- A slot's live fields (R57). -/
structure SlotLive where
  state : SlotState
  active : Option Half
  writePos : Nat
  postTarget : Nat
  firstPostPending : Bool
  earlyRaised : Bool
  lastStored : Tick
deriving DecidableEq, Repr

/-- A slot with the records of its two halves. -/
structure Slot where
  config : SlotConfig
  live : SlotLive
  recA : CaptureRecord
  recB : CaptureRecord
deriving DecidableEq, Repr

/-- The part-wide state of the capture engine: trigger gate (R76), capture number counter (R85), capture index (R86) and count
table settings (R93). -/
structure CaptureUnit where
  gateOpen : Bool
  counter : BitVec 16
  index : List (Fin 8 × Half)
  tableOn : Bool
  tableBase : MemAddr
deriving DecidableEq, Repr

/-! ## Write queue and memory controller (R99, R105 to R118, R128) -/

/-- A write-queue entry (R99). -/
structure QueueEntry where
  slot : Fin 8
  half : Half
  position : Nat
  value : MemWord
  address : MemAddr
deriving DecidableEq, Repr

/-- SDRAM contents: pairs of word address and word, addresses strictly rising. An unlisted word has not been written since
power-on reset (log entries 5 and 14). -/
structure Memory where
  cells : List (Nat × MemWord)
deriving DecidableEq, Repr

/-- Memory states (R117). -/
inductive MemState
  | uninit
  | init
  | ready
  | entering
  | hold
  | exiting
deriving DecidableEq, Repr

/-- A timing set, in memory clock cycles (R106, R128). -/
structure TimingSet where
  refreshInterval : Nat
  readLatency : Nat
  activateToAccess : Nat
  precharge : Nat
  minRowOpen : Nat
deriving DecidableEq, Repr

/-- A FETCH read placed at the controller, with the context waiting for it (R112). -/
structure FetchRead where
  address : MemAddr
  count : Nat
  context : Fin 4
deriving DecidableEq, Repr

/-- The operation on the memory port (R107, R120, R122, R126). -/
inductive PortOp
  /-- a write burst, with the entries it took from the queue (R101) -/
  | burst (entries : List QueueEntry)
  /-- the read that stands first at the controller (R113) -/
  | fetchRead
  /-- a count-table write, with the address and value taken at its beginning (R115) -/
  | countWrite (word : Fin 16) (address : MemAddr) (value : MemWord)
  /-- a refresh (R111) -/
  | refresh
  /-- the initialisation sequence (R120) -/
  | initSequence
  /-- the closing operation (R122) -/
  | closing
  /-- the exit sequence; `modeSet` says whether its step 3 is given (R126) -/
  | exitSequence (modeSet : Bool)
deriving DecidableEq, Repr

/-- The refresh timer (R110). -/
structure RefreshTimer where
  running : Bool
  count : Nat
deriving DecidableEq, Repr

/-- The memory controller. `banks` holds for each bank the row it has open, or none when it is CLOSED (R105). -/
structure MemCtl where
  state : MemState
  holdRequest : Bool
  written : TimingSet
  effect : TimingSet
  op : Option PortOp
  reads : List FetchRead
  dirty : Vector Bool 16
  banks : Vector (Option Nat) 4
  timer : RefreshTimer
  refreshDue : Bool
deriving DecidableEq, Repr

/-! ## Notice unit (R131) -/

/-- A built notice (R137) with its express mark (R136). -/
structure Notice where
  responder : BitVec 6
  cls : Fin 8
  lowest : Fin 32
  sources : BitVec 32
  dispatch : BitVec 16
  time : Micros
  express : Bool
deriving DecidableEq, Repr

/-- The holdoff timer (R141). -/
structure HoldoffTimer where
  running : Bool
  remaining : Nat
deriving DecidableEq, Repr

/-- The notice unit: sets, flags, settings, notice slot and holdoff timer (R131, R133, R134). -/
structure NoticeUnit where
  pending : Vector (BitVec 32) 8
  enable : Vector (BitVec 32) 8
  announced : BitVec 8
  order : Vector (Fin 8) 8
  express : Option (Fin 8)
  holdoff : BitVec 16
  dispatchBase : BitVec 16
  dispatchShift : Fin 8
  noticeSlot : Option Notice
  timer : HoldoffTimer
deriving DecidableEq, Repr

/-! ## Link ports and forward queues (R148, R153, R159) -/

/-- Receiver states (R148). -/
inductive Receiver
  | seek
  | locked
  | up
  | failed
deriving DecidableEq, Repr

/-- Sweep phase of a receiver in SEEK (R148). -/
inductive SweepPhase
  | sweeping
  | pausing (remaining : Nat)
deriving DecidableEq, Repr

/-- What a tap showed (R149). -/
inductive TapValue
  | zero
  | one
  | unsteady
deriving DecidableEq, Repr

/-- A frame under reception: the octets kept so far and the oversize mark (R148, R155). -/
structure RxFrame where
  octets : Frame
  oversize : Bool
deriving DecidableEq, Repr

/-- One port's receiver state (R148). `observed` holds the symbols seen so far at the present tap. -/
structure PortState where
  receiver : Receiver
  tap : BitVec 6
  sweep : SweepPhase
  observed : List Symbol
  previous : Option TapValue
  failures : Nat
  validRun : Nat
  invalidRun : Nat
  frame : Option RxFrame
deriving DecidableEq, Repr

/-- What holds the frame being sent at D-out (R161). -/
inductive DHolder
  | forward
  | notice
  | busy
  | context (i : Fin 4)
deriving DecidableEq, Repr

/-- The frame being sent at D-out and where it was chosen from (R153, R161). -/
structure DSending where
  holder : DHolder
  frame : Frame
deriving DecidableEq, Repr

/-- The two forward queues (R159) and the frames in transmission (R153). -/
structure LinkState where
  u2d : List Frame
  d2u : List Frame
  dSending : Option DSending
  uSending : Option Frame
deriving DecidableEq, Repr

/-! ## Management endpoint (R164 to R171) -/

/-- Statuses (R172). -/
inductive Status
  | ok
  | busy
  | badOp
  | badSpace
  | badIndex
  | badValue
  | duplicate
  | locked
  | wrongState
  | notReady
  | notHeld
  | faulted
deriving DecidableEq, Repr

/-- A MGMT-REQ as taken from the link: its octets before the CRC, the check octet last (R180). -/
structure Request where
  octets : List Octet
deriving DecidableEq, Repr

/-- A response (R173); the responder address is the part's node address. -/
structure Response where
  tag : Octet
  status : Status
  words : List MgmtWord
deriving DecidableEq, Repr

/-- A request in a context with the order in which it was taken (R169). -/
structure Taken where
  request : Request
  order : Nat
deriving DecidableEq, Repr

/-- A request context (R169). -/
inductive Context
  | free
  | waiting (taken : Taken)
  | reading (taken : Taken)
  | answering (taken : Taken) (response : Response)
deriving DecidableEq, Repr

/-- What the refusal slot holds (R170). -/
structure Refused where
  request : Request
  response : Response
deriving DecidableEq, Repr

/-- The cause of a recorded fault: CHECK is the only one (R167). -/
inductive FaultCause
  | check
deriving DecidableEq, Repr

/-- A valid fault record (R167). `filledAt` is how many contexts had been taken when it was filled, which R168's third condition
needs (log entry 12). -/
structure FaultRecord where
  tag : Octet
  op : BitVec 4
  code : Octet
  cause : FaultCause
  filledAt : Nat
deriving DecidableEq, Repr

/-- Check mode (R168). -/
inductive CheckMode
  | stop
  | proceed
deriving DecidableEq, Repr

/-- The management endpoint. `accepted` counts the contexts taken since power-on reset and gives the next one its order. -/
structure Endpoint where
  nodeAddress : BitVec 6
  contexts : Vector Context 4
  accepted : Nat
  refusal : Option Refused
  fault : Option FaultRecord
  mode : CheckMode
deriving DecidableEq, Repr

/-! ## The whole part -/

/-- The state of the part, and the queue of commands waiting (`pending`, first in, first out). `free` counts the undefined memory
words handed out (log entries 5 and 22). -/
structure State where
  channels : Vector MapEntry 64
  handing : Option Handing
  watches : Vector Watch 32
  slots : Vector Slot 8
  capture : CaptureUnit
  queue : List QueueEntry
  mem : Memory
  ctl : MemCtl
  notices : NoticeUnit
  uPort : PortState
  dPort : PortState
  link : LinkState
  ep : Endpoint
  micros : Micros
  free : Nat
  pending : List Instr
deriving DecidableEq, Repr

/-- No step of the block faults: errors are statuses, notice sources and records, all of them effects on State. -/
inductive Fault
deriving DecidableEq, Repr

/-- Why a step is refused. -/
inductive Refusal
  /-- Raised by exec's arm of a command that has no meaning yet; no arm is left so. Safe. -/
  | notModelled (mnemonic : String)
deriving DecidableEq, Repr

/-! ## Power-on reset values -/

/-- R2. -/
def MapEntry.reset : MapEntry where
  valid := false
  sourceId := 0
  interval := 1
  bound := none
  sync := .unsynced
  expected := 0
  lastTimestamp := 0

/-- R18. -/
def WatchConfig.reset : WatchConfig where
  channel := 0
  kind := .above
  thresholdA := 0
  thresholdB := 0
  hysteresis := 0
  sensitivity := .edge
  qualify := 1
  polarity := .rising
  windowMin := 0
  windowMax := 16777215
  target := 0

/-- R18, R41. -/
def Watch.reset : Watch where
  config := WatchConfig.reset
  state := .off
  progress := 0
  startTime := 0
  lastResult := .none
  lastFire := 0
  lastOutcome := .none
  phase := .away

/-- A cleared record, with the half's state (R80, R81). -/
def CaptureRecord.cleared (state : HalfState) : CaptureRecord where
  state := state
  captureNumber := 0
  triggerSource := 0
  triggerTime := 0
  start := 0
  preCount := 0
  postCount := 0
  filled := 0
  retriggers := 0
  gaps := 0
  lost := 0
  extended := false
  clipped := false
  truncated := false
  lastSampleTime := 0

/-- R53. -/
def SlotConfig.reset : SlotConfig where
  base := 0
  size := 512
  pre := 0
  post := 256
  early := 0
  retrigger := .ignore
  full := .stop

/-- The live fields that power-on reset, RESET-CAPTURE and every move to IDLE or STALLED give (R57). -/
def SlotLive.cleared (state : SlotState) : SlotLive where
  state := state
  active := none
  writePos := 0
  postTarget := 0
  firstPostPending := false
  earlyRaised := false
  lastStored := 0

/-- R77, R97. -/
def Slot.reset : Slot where
  config := SlotConfig.reset
  live := SlotLive.cleared .idle
  recA := CaptureRecord.cleared .empty
  recB := CaptureRecord.cleared .empty

/-- R76, R77, R97. -/
def CaptureUnit.reset : CaptureUnit where
  gateOpen := true
  counter := 0
  index := []
  tableOn := false
  tableBase := 0

/-- R128. -/
def TimingSet.reset : TimingSet where
  refreshInterval := 1560
  readLatency := 3
  activateToAccess := 3
  precharge := 3
  minRowOpen := 6

/-- R116, R117. The count of the stopped refresh timer is DESIGN CHOICE 0 (log entry 4). -/
def MemCtl.reset : MemCtl where
  state := .uninit
  holdRequest := false
  written := TimingSet.reset
  effect := TimingSet.reset
  op := none
  reads := []
  dirty := Vector.replicate 16 false
  banks := Vector.replicate 4 none
  timer := ⟨false, 0⟩
  refreshDue := false

/-- R133, R134, R145. -/
def NoticeUnit.reset : NoticeUnit where
  pending := Vector.replicate 8 0
  enable := Vector.replicate 8 0
  announced := 0
  order := #v[7, 0, 3, 5, 4, 1, 2, 6]
  express := none
  holdoff := 100
  dispatchBase := 0
  dispatchShift := 0
  noticeSlot := none
  timer := ⟨false, 0⟩

/-- R148. -/
def PortState.reset : PortState where
  receiver := .seek
  tap := 0
  sweep := .sweeping
  observed := []
  previous := none
  failures := 0
  validRun := 0
  invalidRun := 0
  frame := none

/-- R148, R159. -/
def LinkState.reset : LinkState where
  u2d := []
  d2u := []
  dSending := none
  uSending := none

/-- R164, R167 to R170. -/
def Endpoint.reset (straps : BitVec 6) : Endpoint where
  nodeAddress := straps
  contexts := Vector.replicate 4 .free
  accepted := 0
  refusal := none
  fault := none
  mode := .stop

/-- The part after a power-on reset that sampled `straps`, with the model's own two fields as given. -/
def State.powerOn (straps : BitVec 6) (free : Nat) (pending : List Instr) : State where
  channels := Vector.replicate 64 MapEntry.reset
  handing := none
  watches := Vector.replicate 32 Watch.reset
  slots := Vector.replicate 8 Slot.reset
  capture := CaptureUnit.reset
  queue := []
  mem := ⟨[]⟩
  ctl := MemCtl.reset
  notices := NoticeUnit.reset
  uPort := PortState.reset
  dPort := PortState.reset
  link := LinkState.reset
  ep := Endpoint.reset straps
  micros := 0
  free := free
  pending := pending

/-- The machine right after reset, with an empty queue. The straps are DESIGN CHOICE 0 (log entry 6). -/
def State.reset : State :=
  State.powerOn Config.resetStraps 0 []

end Sys2Proof.Machine
end

