-- ==== Sys2Proof/Machine/Operands.lean ====
section
/-! DEFINITION. Operand forms: bit fields of words, octet order, the CRC, the fields of received frames and requests, and the
octets of the frames the part originates (spec/11). -/

namespace Sys2Proof.Machine

/-! ## Bit fields -/

/-- Bits lo to lo + width - 1 of a management word, as a number. -/
def bits (w : MgmtWord) (lo width : Nat) : Nat :=
  w.toNat / 2 ^ lo % 2 ^ width

/-- A management word whose bits lo to lo + width - 1 hold v and whose other bits are 0. -/
def place (lo width v : Nat) : MgmtWord :=
  BitVec.ofNat 32 (v % 2 ^ width * 2 ^ lo)

/-- 1 for set, 0 for clear. -/
def flag (b : Bool) : Nat :=
  if b then 1 else 0

/-! ## Octet order: most significant first (R180) -/

def word16 (hi lo : Octet) : BitVec 16 :=
  hi ++ lo

def word32 (a b c d : Octet) : BitVec 32 :=
  a ++ b ++ c ++ d

def octetsOf16 (w : BitVec 16) : List Octet :=
  [w.extractLsb' 8 8, w.extractLsb' 0 8]

def octetsOf32 (w : BitVec 32) : List Octet :=
  [w.extractLsb' 24 8, w.extractLsb' 16 8, w.extractLsb' 8 8, w.extractLsb' 0 8]

/-- The octet at a place of a frame; 0 past its end. -/
def octetAt (f : List Octet) (i : Nat) : Octet :=
  f.getD i 0

def word16At (f : List Octet) (i : Nat) : BitVec 16 :=
  word16 (octetAt f i) (octetAt f (i + 1))

def word32At (f : List Octet) (i : Nat) : BitVec 32 :=
  word32 (octetAt f i) (octetAt f (i + 1)) (octetAt f (i + 2)) (octetAt f (i + 3))

/-! ## CRC (11.2, R156, R181) -/

/-- One bit fed to the CRC register. -/
def crcBit (reg : BitVec 16) (bit : Bool) : BitVec 16 :=
  if bit != reg.msb then (reg <<< 1) ^^^ 0x1021 else reg <<< 1

/-- One octet fed, most significant bit first. -/
def crcOctet (reg : BitVec 16) (o : Octet) : BitVec 16 :=
  [7, 6, 5, 4, 3, 2, 1, 0].foldl (fun r k => crcBit r (o.getLsbD k)) reg

def crc16 (octets : List Octet) : BitVec 16 :=
  octets.foldl crcOctet 0xFFFF

/-- The CRC check of a completed frame (R156): at least 3 octets, and the last two hold the CRC of the others, high octet first. -/
def goodCrc (f : Frame) : Bool :=
  decide (3 ≤ f.length) && crc16 (f.take (f.length - 2)) == word16At f (f.length - 2)

/-- A frame the part originates: its octets and their CRC (R181). -/
def withCrc (body : List Octet) : Frame :=
  body ++ octetsOf16 (crc16 body)

/-- The symbols a frame is sent as: START, its octets in order, END (R153). -/
def frameSymbols (f : Frame) : List Symbol :=
  .startFrame :: (f.map .data ++ [.endFrame])

/-! ## Received frames (11.1) -/

/-- The kind of a frame: the high nibble of its first octet (R156). -/
def frameKind (f : Frame) : BitVec 4 :=
  (octetAt f 0).extractLsb' 4 4

def sampleSource (f : Frame) : BitVec 12 :=
  (octetAt f 0).extractLsb' 0 4 ++ octetAt f 1

def sampleSequence (f : Frame) : BitVec 8 :=
  octetAt f 2

def sampleTimestamp (f : Frame) : Tick :=
  word32At f 3

def sampleCount (f : Frame) : Nat :=
  (octetAt f 7).toNat

/-- The samples of a frame, in the order they stand in it. -/
def frameSamples (f : Frame) : List Sample :=
  (List.range (sampleCount f)).map fun i => word16At f (8 + 2 * i)

/-- The conditions under which a frame completed at the U port is offered to the channel map (R8). -/
def offeredToMap (f : Frame) : Bool :=
  goodCrc f && frameKind f == 1 && decide (f.length ≤ Config.frameLimit) &&
    decide (1 ≤ sampleCount f) && decide (sampleCount f ≤ 32) && decide (f.length = 10 + 2 * sampleCount f)

/-! ## Requests (11.1, R182) -/

/-- A request taken from a frame: its octets before the CRC. -/
def Request.ofFrame (f : Frame) : Request :=
  ⟨f.take (f.length - 2)⟩

def Request.op (r : Request) : BitVec 4 :=
  (octetAt r.octets 0).extractLsb' 0 4

def Request.destination (r : Request) : BitVec 6 :=
  (octetAt r.octets 1).extractLsb' 0 6

def Request.tag (r : Request) : Octet :=
  octetAt r.octets 2

/-- The space of a READ or WRITE, the code of a COMMAND. -/
def Request.space (r : Request) : Octet :=
  octetAt r.octets 3

def Request.index (r : Request) : Nat :=
  (word16At r.octets 4).toNat

def Request.count (r : Request) : Nat :=
  (octetAt r.octets 6).toNat

def Request.address (r : Request) : Nat :=
  (octetAt r.octets 7 ++ octetAt r.octets 8 ++ octetAt r.octets 9 : BitVec 24).toNat

/-- Data word k of a WRITE; word 0 is the argument of a COMMAND. -/
def Request.dataWord (r : Request) (k : Nat) : MgmtWord :=
  word32At r.octets (11 + 4 * k)

def Request.argument (r : Request) : MgmtWord :=
  r.dataWord 0

/-- A broadcast request (R165). -/
def Request.broadcast (r : Request) : Bool :=
  r.destination == Config.broadcastAddress

/-- The op nibbles (11.1). -/
def opRead : BitVec 4 := 1
def opWrite : BitVec 4 := 2
def opCommand : BitVec 4 := 3
def opFetch : BitVec 4 := 4

/-- The op nibble names READ, WRITE, COMMAND or FETCH. -/
def Request.opDefined (r : Request) : Bool :=
  r.op == opRead || r.op == opWrite || r.op == opCommand || r.op == opFetch

/-- The frame carries the octets its op and count call for (R172 item 1): 12 octets before the CRC, and the data words. -/
def Request.lengthFits (r : Request) : Bool :=
  if r.op == opRead || r.op == opFetch then decide (r.octets.length = 12)
  else if r.op == opWrite then decide (r.octets.length = 12 + 4 * r.count)
  else decide (r.octets.length = 16)

/-- The sum of the octets before the CRC, modulo 256; 0 passes the check octet test (R166). -/
def Request.checkSum (r : Request) : Octet :=
  r.octets.foldl (· + ·) 0

/-- The word a WRITE carries for an index of its space, if it covers that index. -/
def Request.covered (r : Request) (word : Nat) : Option MgmtWord :=
  if r.index ≤ word ∧ word < r.index + r.count then some (r.dataWord (word - r.index)) else none

/-- The command codes (R177). -/
def codeArmSlot : Nat := 1
def codeDisarmSlot : Nat := 2
def codeForceTrigger : Nat := 3
def codeReleaseHalf : Nat := 4
def codeEnableWatch : Nat := 5
def codeDisableWatch : Nat := 6
def codeGate : Nat := 7
def codeAckNotice : Nat := 8
def codeClearFault : Nat := 9
def codeMemStart : Nat := 10
def codeMemHold : Nat := 11
def codeResetCapture : Nat := 12
def codeRealign : Nat := 13

/-- The code names one of the thirteen commands (R177). -/
def Request.codeDefined (r : Request) : Bool :=
  decide (1 ≤ r.space.toNat) && decide (r.space.toNat ≤ 13)

/-- The request is a COMMAND with this code. -/
def Request.isCommand (code : Nat) (r : Request) : Bool :=
  r.op == opCommand && decide (r.space.toNat = code)

/-! ## Command arguments (11.5, R177) -/

/-- The slot argument of ARM-SLOT, DISARM-SLOT and FORCE-TRIGGER. -/
def slotArg (a : MgmtWord) : Option (Fin 8) :=
  if h : bits a 0 8 < 8 then some ⟨bits a 0 8, h⟩ else none

def halfOfNat : Nat → Option Half
  | 0 => some .a
  | 1 => some .b
  | _ => none

/-- The slot and half argument of RELEASE-HALF. -/
def releaseArg (a : MgmtWord) : Option (Fin 8 × Half) :=
  match slotArg a, halfOfNat (bits a 8 8) with
  | some sl, some h => some (sl, h)
  | _, _ => none

/-- The watch argument of ENABLE-WATCH and DISABLE-WATCH. -/
def watchArg (a : MgmtWord) : Option (Fin 32) :=
  if h : bits a 0 8 < 32 then some ⟨bits a 0 8, h⟩ else none

/-- The argument of GATE: true for OPEN. -/
def gateArg (a : MgmtWord) : Option Bool :=
  match bits a 0 8 with
  | 0 => some false
  | 1 => some true
  | _ => none

/-- The argument of ACK-NOTICE: the class and the sources named, as bits of the class's set (R142). -/
def ackArg (a : MgmtWord) : Option (Fin 8 × BitVec 32) :=
  if h : bits a 16 8 < 8 then
    match bits a 24 8 with
    | 0 => some (⟨bits a 16 8, h⟩, BitVec.ofNat 32 (bits a 0 16))
    | 1 => some (⟨bits a 16 8, h⟩, BitVec.ofNat 32 (bits a 0 16 * 65536))
    | _ => none
  else none

/-- The argument of REALIGN. -/
def portArg (a : MgmtWord) : Option Port :=
  match bits a 0 8 with
  | 0 => some .u
  | 1 => some .d
  | _ => none

/-! ## Frames the part originates (11.1) -/

/-- Status codes (11.1). -/
def Status.code : Status → Octet
  | .ok => 0
  | .busy => 1
  | .badOp => 2
  | .badSpace => 3
  | .badIndex => 4
  | .badValue => 5
  | .duplicate => 6
  | .locked => 7
  | .wrongState => 8
  | .notReady => 9
  | .notHeld => 10
  | .faulted => 11

/-- A MGMT-RSP frame (R173, R180, R181). -/
def Response.frame (node : BitVec 6) (r : Response) : Frame :=
  withCrc ([0x30, node.zeroExtend 8, r.tag, r.status.code, BitVec.ofNat 8 r.words.length] ++ r.words.flatMap octetsOf32)

/-- A NOTICE frame (R137, R180, R181). -/
def Notice.frame (n : Notice) : Frame :=
  withCrc ([0x40, n.responder.zeroExtend 8, BitVec.ofNat 8 n.cls.val, BitVec.ofNat 8 n.lowest.val] ++
    octetsOf32 n.sources ++ octetsOf16 n.dispatch ++ octetsOf32 n.time)

/-- Words read by a FETCH packed two to a management word, the lower address in the low half, an odd last word alone in its low
half (R114). -/
def packWords : List MemWord → List MgmtWord
  | [] => []
  | [w] => [w.zeroExtend 32]
  | lo :: hi :: rest => (hi ++ lo : BitVec 32) :: packWords rest

end Sys2Proof.Machine
end

