-- ==== Sys2Proof/Machine/Ops.lean ====
section
/-! DEFINITION. Named operations over the state: reads and updates of tables, SDRAM contents, banks, and the two transmit
arbiters. -/

namespace Sys2Proof.Machine

/-! ## Tables -/

def State.channel (s : State) (e : Fin 64) : MapEntry :=
  s.channels[e]

def State.setChannel (s : State) (e : Fin 64) (x : MapEntry) : State :=
  { s with channels := s.channels.set e x }

def State.watch (s : State) (w : Fin 32) : Watch :=
  s.watches[w]

def State.setWatch (s : State) (w : Fin 32) (x : Watch) : State :=
  { s with watches := s.watches.set w x }

def State.slot (s : State) (i : Fin 8) : Slot :=
  s.slots[i]

def State.setSlot (s : State) (i : Fin 8) (x : Slot) : State :=
  { s with slots := s.slots.set i x }

def Slot.record (x : Slot) : Half → CaptureRecord
  | .a => x.recA
  | .b => x.recB

def Slot.setRecord (x : Slot) (h : Half) (r : CaptureRecord) : Slot :=
  match h with
  | .a => { x with recA := r }
  | .b => { x with recB := r }

def State.record (s : State) (i : Fin 8) (h : Half) : CaptureRecord :=
  (s.slot i).record h

def State.setRecord (s : State) (i : Fin 8) (h : Half) (r : CaptureRecord) : State :=
  s.setSlot i ((s.slot i).setRecord h r)

def State.setLive (s : State) (i : Fin 8) (l : SlotLive) : State :=
  s.setSlot i { s.slot i with live := l }

def State.port (s : State) : Port → PortState
  | .u => s.uPort
  | .d => s.dPort

def State.setPort (s : State) (p : Port) (x : PortState) : State :=
  match p with
  | .u => { s with uPort := x }
  | .d => { s with dPort := x }

def State.context (s : State) (i : Fin 4) : Context :=
  s.ep.contexts[i]

def State.setContext (s : State) (i : Fin 4) (c : Context) : State :=
  { s with ep := { s.ep with contexts := s.ep.contexts.set i c } }

/-! ## Small arithmetic -/

/-- One more, stopping at a maximum (spec/00, saturating counts). -/
def satSucc (limit n : Nat) : Nat :=
  min (n + 1) limit

/-- (a - b) mod m, as positions round a half are counted (R66, R72). -/
def ringSub (a b m : Nat) : Nat :=
  (a + (m - b % m)) % m

def Half.number : Half → Nat
  | .a => 0
  | .b => 1

def Half.other : Half → Half
  | .a => .b
  | .b => .a

/-- The number of the count word of a half: 2s + h (R94). -/
def countWordOf (i : Fin 8) (h : Half) : Fin 16 :=
  match h with
  | .a => ⟨2 * i.val, by omega⟩
  | .b => ⟨2 * i.val + 1, by omega⟩

/-- The slot and half of a count word (R94). -/
def halfOfCountWord (w : Fin 16) : Fin 8 × Half :=
  (⟨w.val / 2, by omega⟩, if w.val % 2 = 0 then .a else .b)

/-- The memory address of position p of half h: base + h × S + p (R53). -/
def SlotConfig.address (c : SlotConfig) (h : Half) (p : Nat) : MemAddr :=
  BitVec.ofNat 24 (c.base + h.number * c.size + p)

/-! ## SDRAM contents -/

/-- The cells after a write, addresses still strictly rising. -/
def writeCells (a : Nat) (v : MemWord) : List (Nat × MemWord) → List (Nat × MemWord)
  | [] => [(a, v)]
  | (b, w) :: rest =>
    if a < b then (a, v) :: (b, w) :: rest
    else if a = b then (a, v) :: rest
    else (b, w) :: writeCells a v rest

/-- The word listed at an address. -/
def readCells (a : Nat) : List (Nat × MemWord) → Option MemWord
  | [] => none
  | (b, w) :: rest => if a = b then some w else readCells a rest

/-- What an unlisted word reads as: no value. It has not been written since power-on reset, and a FETCH of it returns a free value
(R113, log entry 5). -/
def Memory.unlisted : Option MemWord :=
  none

def Memory.read (m : Memory) (a : MemAddr) : Option MemWord :=
  (readCells a.toNat m.cells).or Memory.unlisted

def Memory.write (m : Memory) (a : MemAddr) (v : MemWord) : Memory :=
  ⟨writeCells a.toNat v m.cells⟩

/-- Addresses strictly rise along the list. -/
def risingCells : List (Nat × MemWord) → Bool
  | [] => true
  | [_] => true
  | (a, _) :: (b, w) :: rest => decide (a < b) && risingCells ((b, w) :: rest)

/-- The canonical form: addresses strictly rising, each one of the SDRAM's. No entry can equal what an unlisted word reads as, since
that is no value. -/
def Memory.wf (m : Memory) : Bool :=
  risingCells m.cells && m.cells.all fun c => decide (c.1 < Config.memoryWords)

/-- The words of a FETCH read in ascending address order (R113); a word not written since power-on reset is a free value. -/
def Memory.fetchWords (m : Memory) (free : Nat) (a : MemAddr) (count : Nat) : List MemWord :=
  (List.range count).map fun k =>
    let at_ := a + BitVec.ofNat 24 k
    (m.read at_).getD (Config.unwrittenWord (free + k) at_)

/-- A burst writes its entries in order, each value to its entry's address (R102). -/
def Memory.writeBurst (m : Memory) (entries : List QueueEntry) : Memory :=
  entries.foldl (fun acc e => acc.write e.address e.value) m

/-! ## Banks (R104, R105) -/

def columnOf (a : MemAddr) : Nat :=
  a.toNat % 512

def bankOf (a : MemAddr) : Fin 4 :=
  ⟨a.toNat / 512 % 4, Nat.mod_lt _ (by omega)⟩

def rowOf (a : MemAddr) : Nat :=
  a.toNat / 2048

abbrev Banks := Vector (Option Nat) 4

/-- Every bank CLOSED. -/
def closedBanks : Banks :=
  Vector.replicate 4 none

/-- The banks after the word at an address has been accessed: its row is open in its bank, the other banks as they were (R105). -/
def openRow (b : Banks) (a : MemAddr) : Banks :=
  b.set (bankOf a) (some (rowOf a))

def openRows (b : Banks) (addresses : List MemAddr) : Banks :=
  addresses.foldl openRow b

/-! ## Responses on offer (R170, R173) -/

def Context.isFree : Context → Bool
  | .free => true
  | .waiting _ => false
  | .reading _ => false
  | .answering _ _ => false

def Context.isReading : Context → Bool
  | .reading _ => true
  | .free => false
  | .waiting _ => false
  | .answering _ _ => false

def Context.isWaiting : Context → Bool
  | .waiting _ => true
  | .free => false
  | .reading _ => false
  | .answering _ _ => false

/-- The order in which a context that is not FREE was taken (R169). -/
def Context.order : Context → Option Nat
  | .free => none
  | .waiting t => some t.order
  | .reading t => some t.order
  | .answering t _ => some t.order

/-- The context taken earliest among those a test selects. -/
def State.oldest (s : State) (p : Context → Bool) : Option (Fin 4) :=
  (List.finRange 4).foldl (fun best i =>
    if p (s.context i) then
      match best with
      | none => some i
      | some j => if (s.context i).order.getD 0 < (s.context j).order.getD 0 then some i else some j
    else best) none

/-- The response the endpoint offers as oldest: the refusal slot's BUSY response, else that of the oldest context that is not FREE,
when it is ANSWERING (R170, R173). -/
def State.offeredResponse (s : State) : Option (DHolder × Response) :=
  match s.ep.refusal with
  | some r => some (.busy, r.response)
  | none =>
    match s.oldest (fun c => !c.isFree) with
    | none => none
    | some i =>
      match s.context i with
      | .answering _ r => some (.context i, r)
      | .free => none
      | .waiting _ => none
      | .reading _ => none

/-! ## Transmit arbiters (R160 to R162) -/

/-- The head of the U-to-D forward queue as a frame to send. -/
def State.forwardCandidate (s : State) : Option DSending :=
  match s.link.u2d with
  | [] => none
  | f :: _ => some ⟨.forward, f⟩

/-- The frame in the notice slot, when its express mark is as asked. -/
def State.noticeCandidate (s : State) (express : Bool) : Option DSending :=
  match s.notices.noticeSlot with
  | none => none
  | some n => if n.express == express then some ⟨.notice, n.frame⟩ else none

/-- The response on offer as a frame to send. -/
def State.responseCandidate (s : State) : Option DSending :=
  match s.offeredResponse with
  | none => none
  | some (holder, r) => some ⟨holder, r.frame s.ep.nodeAddress⟩

/-- The D transmit arbiter's choice, the first of R161's five items that applies. -/
def State.dCandidate (s : State) : Option DSending :=
  if Config.forwardHighWater ≤ s.link.u2d.length then s.forwardCandidate
  else
    match s.noticeCandidate true with
    | some x => some x
    | none =>
      match s.responseCandidate with
      | some x => some x
      | none =>
        match s.noticeCandidate false with
        | some x => some x
        | none => s.forwardCandidate

/-- A decision point of the D transmit arbiter: with the receiver UP and nothing being sent, the chosen frame is begun (R160). -/
def dChoose (s : State) : State :=
  if s.dPort.receiver = .up ∧ s.link.dSending = none then
    { s with link := { s.link with dSending := s.dCandidate } }
  else s

/-- A decision point of the U port's transmitter: the head of the D-to-U queue is begun (R162). -/
def uChoose (s : State) : State :=
  if s.uPort.receiver = .up ∧ s.link.uSending = none then
    { s with link := { s.link with uSending := s.link.d2u.head? } }
  else s

/-- What a transmitter puts on the line (R148, R153). -/
inductive TxActivity
  | train (lock : Bool)
  | idle
  | sending (frame : Frame)
deriving DecidableEq, Repr

/-- The activity that follows from the frame being sent and the port's own receiver (R153). -/
def txActivity (receiver : Receiver) (sending : Option Frame) : TxActivity :=
  match sending with
  | some f => .sending f
  | none =>
    match receiver with
    | .up => .idle
    | .locked => .train true
    | .seek => .train false
    | .failed => .train false

/-- The activity of a port's transmitter. -/
def State.transmitter (s : State) : Port → TxActivity
  | .u => txActivity s.uPort.receiver s.link.uSending
  | .d => txActivity s.dPort.receiver (s.link.dSending.map DSending.frame)

end Sys2Proof.Machine
end

