-- ==== Sys2Proof/Machine/Flags.lean ====
section
/-! DEFINITION. The notice unit: raising sources, eligibility, building notices, the holdoff timer, acknowledging and the ALERT pin
(spec/08). -/

namespace Sys2Proof.Machine

/-! ## Classes and sources (R130) -/

def classCaptureDone : Fin 8 := 0
def classEarly : Fin 8 := 1
def classWatchFired : Fin 8 := 2
def classTriggerMissed : Fin 8 := 3
def classOverwritten : Fin 8 := 4
def classSamplesLost : Fin 8 := 5
def classState : Fin 8 := 6
def classFault : Fin 8 := 7

/-- The sources a class has: 32 watches, 3 faults, 8 of every other class. -/
def classSources (c : Fin 8) : BitVec 32 :=
  if c = classWatchFired then 0xFFFFFFFF else if c = classFault then 0x7 else 0xFF

/-- STATE sources (R130). -/
def srcPortUp : Port → Fin 32
  | .u => 0
  | .d => 3

def srcPortDown : Port → Fin 32
  | .u => 1
  | .d => 4

def srcUFailed : Fin 32 := 2
def srcDropU2D : Fin 32 := 5
def srcDropD2U : Fin 32 := 6
def srcMemoryReady : Fin 32 := 7

/-- FAULT sources (R130). -/
def srcCheckFault : Fin 32 := 0

def srcOversize : Port → Fin 32
  | .u => 1
  | .d => 2

/-- The source number of a slot. -/
def slotSource (i : Fin 8) : Fin 32 :=
  ⟨i.val, by omega⟩

/-- The set holding one source. -/
def sourceBit (n : Fin 32) : BitVec 32 :=
  (1 : BitVec 32) <<< n.val

/-! ## Eligibility (R131) -/

/-- The eligible sources of a class: pending and enabled. -/
def NoticeUnit.eligibleSources (u : NoticeUnit) (c : Fin 8) : BitVec 32 :=
  u.pending[c] &&& u.enable[c]

def NoticeUnit.announcedFlag (u : NoticeUnit) (c : Fin 8) : Bool :=
  u.announced.getLsbD c.val

/-- A class is eligible while it has an eligible source and its announced flag is clear. -/
def NoticeUnit.eligible (u : NoticeUnit) (c : Fin 8) : Bool :=
  u.eligibleSources c != 0 && !u.announcedFlag c

/-- The lowest-numbered source of a set. -/
def lowestSource (set : BitVec 32) : Fin 32 :=
  ((List.finRange 32).find? fun n => set.getLsbD n.val).getD 0

/-- The ALERT pin is asserted while any class has a source both pending and enabled (R144). -/
def NoticeUnit.alert (u : NoticeUnit) : Bool :=
  (List.finRange 8).any fun c => u.eligibleSources c != 0

/-! ## Building (R136 to R139) -/

/-- The express class, when it is eligible. -/
def NoticeUnit.expressChoice (u : NoticeUnit) : Option (Fin 8) :=
  match u.express with
  | some c => if u.eligible c then some c else none
  | none => none

/-- The first eligible class in the order list, when the holdoff timer is not running. -/
def NoticeUnit.ordinaryChoice (u : NoticeUnit) : Option (Fin 8) :=
  if u.timer.running then none else u.order.toList.find? u.eligible

/-- The class a notice is built for, if R136's conditions hold. -/
def NoticeUnit.buildChoice (u : NoticeUnit) (node : BitVec 6) : Option (Fin 8) :=
  if u.noticeSlot.isSome || node == Config.broadcastAddress then none
  else
    match u.expressChoice with
    | some c => some c
    | none => u.ordinaryChoice

/-- The dispatch value (R138). -/
def dispatchValue (base : BitVec 16) (shift : Fin 8) (c : Fin 8) (lowest : Fin 32) : BitVec 16 :=
  base + BitVec.ofNat 16 ((c.val * 32 + lowest.val) * 2 ^ shift.val)

/-- The notice of R137 for a class. -/
def NoticeUnit.notice (u : NoticeUnit) (node : BitVec 6) (time : Micros) (c : Fin 8) : Notice where
  responder := node
  cls := c
  lowest := lowestSource (u.eligibleSources c)
  sources := u.eligibleSources c
  dispatch := dispatchValue u.dispatchBase u.dispatchShift c (lowestSource (u.eligibleSources c))
  time := time
  express := u.express == some c

/-- The set of announced flags with one class's flag as given. -/
def setAnnounced (flags : BitVec 8) (c : Fin 8) (on : Bool) : BitVec 8 :=
  if on then flags ||| ((1 : BitVec 8) <<< c.val) else flags &&& ~~~((1 : BitVec 8) <<< c.val)

/-- The notice unit after a build, in one step: the frame is placed and the class announced (R136). -/
def NoticeUnit.built (u : NoticeUnit) (node : BitVec 6) (time : Micros) : NoticeUnit :=
  match u.buildChoice node with
  | none => u
  | some c => { u with noticeSlot := some (u.notice node time c), announced := setAnnounced u.announced c true }

/-- A notice is built whenever R136's conditions hold; a frame built into the notice slot is a candidate arriving at the D transmit
arbiter (R160). -/
def build (s : State) : State :=
  match s.notices.buildChoice s.ep.nodeAddress with
  | none => s
  | some _ => dChoose { s with notices := s.notices.built s.ep.nodeAddress s.micros }

/-! ## Raising (R132) -/

/-- The pending sets with one source added; a source its class lacks is never pending (R130). -/
def NoticeUnit.withPending (u : NoticeUnit) (c : Fin 8) (n : Fin 32) : NoticeUnit :=
  { u with pending := u.pending.set c (u.pending[c] ||| (sourceBit n &&& classSources c)) }

/-- A block raises a source: it becomes pending, and a notice is built if R136 now allows. -/
def raise (c : Fin 8) (n : Fin 32) (s : State) : State :=
  build { s with notices := s.notices.withPending c n }

/-! ## Holdoff timer (R140, R141) -/

/-- Starting loads the holdoff setting; a timer started with 0 expires as it starts. -/
def startedTimer (holdoff : BitVec 16) : HoldoffTimer :=
  if holdoff = 0 then ⟨false, 0⟩ else ⟨true, holdoff.toNat⟩

/-- The timer after one step of the microsecond counter. -/
def HoldoffTimer.step (t : HoldoffTimer) : HoldoffTimer :=
  if t.running then (if t.remaining ≤ 1 then ⟨false, 0⟩ else ⟨true, t.remaining - 1⟩) else t

/-! ## Acknowledging (R142) -/

/-- ACK-NOTICE in one step: the named sources leave the pending set and the announced flag clears. -/
def NoticeUnit.acknowledge (u : NoticeUnit) (c : Fin 8) (mask : BitVec 32) : NoticeUnit :=
  { u with pending := u.pending.set c (u.pending[c] &&& ~~~mask), announced := setAnnounced u.announced c false }

/-! ## RESET-CAPTURE (R146) -/

/-- The classes RESET-CAPTURE clears: 0 to 5. -/
def captureClass (c : Fin 8) : Bool :=
  decide (c.val < 6)

/-- The notice unit after RESET-CAPTURE; `sending` says whether the frame in the notice slot has begun to be sent. -/
def NoticeUnit.resetCapture (u : NoticeUnit) (sending : Bool) : NoticeUnit :=
  { u with
    pending := Vector.ofFn fun c => if captureClass c then 0 else u.pending[c]
    announced := u.announced &&& 0xC0
    noticeSlot :=
      match u.noticeSlot with
      | some n => if captureClass n.cls && !sending then none else some n
      | none => none }

end Sys2Proof.Machine
end

