-- ==== Sys2Proof/Machine/MemoryCtl.lean ====
section
/-! DEFINITION. The memory controller's shared operations: forming bursts, the memory arbiter, arrivals of work, the exit from hold
and the count-dirty set (spec/06, spec/07). -/

namespace Sys2Proof.Machine

/-! ## Bursts (R101) -/

/-- The entries that follow `prev` in a burst with room for so many more, and the queue left. -/
def takeRun (prev : QueueEntry) : Nat → List QueueEntry → List QueueEntry × List QueueEntry
  | 0, q => ([], q)
  | _ + 1, [] => ([], [])
  | n + 1, e :: rest =>
    if e.slot = prev.slot ∧ e.half = prev.half ∧ e.position = prev.position + 1 then
      (e :: (takeRun e n rest).1, (takeRun e n rest).2)
    else ([], e :: rest)

/-- The entries a burst takes from the head of the queue, and the queue left. -/
def takeBurst : List QueueEntry → List QueueEntry × List QueueEntry
  | [] => ([], [])
  | e :: rest => (e :: (takeRun e (Config.burstLimit - 1) rest).1, (takeRun e (Config.burstLimit - 1) rest).2)

/-- A burst begins: its entries leave the queue and become the burst in progress (R82, R101). -/
def beginBurst (s : State) : State :=
  { s with queue := (takeBurst s.queue).2, ctl := { s.ctl with op := some (.burst (takeBurst s.queue).1) } }

/-! ## Count words (R94, R115) -/

/-- The lowest-numbered count word whose mark is set. -/
def MemCtl.lowestDirty (c : MemCtl) : Option (Fin 16) :=
  (List.finRange 16).find? fun w => c.dirty[w]

/-- The value of a count word: its half's filled, capped at 65535 (R94). -/
def State.countValue (s : State) (w : Fin 16) : MemWord :=
  BitVec.ofNat 16 (min (s.record (halfOfCountWord w).1 (halfOfCountWord w).2).filled 65535)

/-- The address of a count word, with the base as it stands (R94). -/
def State.countAddress (s : State) (w : Fin 16) : MemAddr :=
  s.capture.tableBase + BitVec.ofNat 24 w.val

/-- A count-table write begins: the mark clears, and value and address are taken (R115). -/
def beginCountWrite (w : Fin 16) (s : State) : State :=
  { s with ctl := { s.ctl with
      dirty := s.ctl.dirty.set w false
      op := some (.countWrite w (s.countAddress w) (s.countValue w)) } }

/-! ## The memory arbiter (R107 to R109, R122) -/

/-- The states in which the arbiter chooses work (R109). -/
def MemState.serving : MemState → Bool
  | .ready => true
  | .entering => true
  | .uninit => false
  | .init => false
  | .hold => false
  | .exiting => false

/-- Something waits that R108 would begin. -/
def State.workWaits (s : State) : Bool :=
  s.ctl.refreshDue || !s.queue.isEmpty || !s.ctl.reads.isEmpty || s.ctl.lowestDirty.isSome

/-- The first of R108's five items that applies is begun; in ENTERING, where none applies, the closing operation (R122). -/
def beginWork (s : State) : State :=
  if s.ctl.refreshDue then { s with ctl := { s.ctl with op := some .refresh, refreshDue := false } }
  else if Config.queueHighWater ≤ s.queue.length then beginBurst s
  else if s.ctl.reads ≠ [] then { s with ctl := { s.ctl with op := some .fetchRead } }
  else
    match s.ctl.lowestDirty with
    | some w => beginCountWrite w s
    | none =>
      if s.queue ≠ [] then beginBurst s
      else if s.ctl.state = .entering then { s with ctl := { s.ctl with op := some .closing } }
      else s

/-- A decision point of the memory arbiter: it chooses while the memory is READY or ENTERING and the port is free. -/
def chooseMem (s : State) : State :=
  if s.ctl.state.serving ∧ s.ctl.op = none then beginWork s else s

/-! ## Exit from hold (R126, R129) -/

/-- The exit begins: the written timing set takes effect, and a mode set is owed when the read latency changes. -/
def beginExit (s : State) : State :=
  { s with ctl := { s.ctl with
      state := .exiting
      effect := s.ctl.written
      op := some (.exitSequence (decide (s.ctl.written.readLatency ≠ s.ctl.effect.readLatency))) } }

/-- Work arrives: in HOLD it starts the exit (R124), at a free port it is a decision point (R107), and otherwise it waits. -/
def workArrives (s : State) : State :=
  if s.ctl.state = .hold then beginExit s else chooseMem s

/-- The mark of a count word is set. -/
def setMark (w : Fin 16) (s : State) : State :=
  { s with ctl := { s.ctl with dirty := s.ctl.dirty.set w true } }

/-- A count word is marked dirty, while the count table is on (R93, R95); the mark is work arriving. Setting a mark that is already set
changes nothing (R115). -/
def markDirty (w : Fin 16) (s : State) : State :=
  if s.capture.tableOn = true ∧ s.ctl.dirty[w] = false then workArrives (setMark w s) else s

/-- A count word is marked dirty by an ARM-SLOT, while the count table is on (R95). In HOLD the mark waits: R124 and R125 keep the
memory in HOLD through an ARM-SLOT, while R124's list of arrivals has every mark start the exit. That the mark is set and does not wake
the memory is the model's choice (log entry 27). -/
def markQuietly (w : Fin 16) (s : State) : State :=
  if s.capture.tableOn then chooseMem (setMark w s) else s

/-- Every count word is marked (R93, R98). -/
def markAll (s : State) : State :=
  workArrives { s with ctl := { s.ctl with dirty := Vector.replicate 16 true } }

/-- The port is free and the arbiter makes its next choice (R102, R111, R114, R115). -/
def freePort (s : State) : State :=
  chooseMem { s with ctl := { s.ctl with op := none } }

/-- An accepted ARM-SLOT withdraws the hold request; ENTERING goes back to READY (R125). -/
def withdrawHold (s : State) : State :=
  { s with ctl := { s.ctl with
      holdRequest := false
      state := if s.ctl.state = .entering then .ready else s.ctl.state } }

/-- The refresh timer loaded with the interval in effect and running (R110). -/
def MemCtl.loadedTimer (c : MemCtl) : RefreshTimer :=
  ⟨true, c.effect.refreshInterval⟩

end Sys2Proof.Machine
end

