-- ==== Sys2Proof/Machine/Capture.lean ====
section
/-! DEFINITION. The capture engine's shared operations: halves, the capture index, recording, triggers, completion and reclaim
(spec/04, spec/05). -/

namespace Sys2Proof.Machine

/-! ## Halves and the index -/

/-- A half becomes the slot's ACTIVE half and the slot goes to ARMED: record cleared, filled 0, live fields as a half that becomes
ACTIVE starts (R57, R60, R71, R81). -/
def activate (i : Fin 8) (h : Half) (s : State) : State :=
  s.setSlot i { (s.slot i).setRecord h (CaptureRecord.cleared .active) with
    live := { SlotLive.cleared .armed with active := some h } }

/-- The slot takes a half after a completion, a release or a reclaim; its count word is marked (R95). -/
def takeHalf (i : Fin 8) (h : Half) (s : State) : State :=
  markDirty (countWordOf i h) (activate i h s)

/-- The slot takes a half by ARM-SLOT; its count word is marked, which leaves a memory in HOLD there (R60, R95, R124, log entry 27). -/
def armHalf (i : Fin 8) (h : Half) (s : State) : State :=
  markQuietly (countWordOf i h) (activate i h s)

/-- A half becomes EMPTY with its record cleared (R81); its count word is marked (R95). -/
def emptyHalf (i : Fin 8) (h : Half) (s : State) : State :=
  markDirty (countWordOf i h) (s.setRecord i h (CaptureRecord.cleared .empty))

/-- The half's entry leaves the capture index and the entries after it move up (R87). -/
def removeIndex (i : Fin 8) (h : Half) (s : State) : State :=
  { s with capture := { s.capture with index := s.capture.index.filter fun e => decide (e ≠ (i, h)) } }

/-- A slot reclaims one of its FULL halves (R73, R92). -/
def reclaim (i : Fin 8) (h : Half) (s : State) : State :=
  raise classOverwritten (slotSource i) (takeHalf i h (removeIndex i h s))

/-- A slot reclaims one of its FULL halves by ARM-SLOT (R60, R73). -/
def armReclaim (i : Fin 8) (h : Half) (s : State) : State :=
  raise classOverwritten (slotSource i) (armHalf i h (removeIndex i h s))

/-- The capture number is given, the half listed and CAPTURE-DONE raised (R84, steps 1 to 3). -/
def listFull (i : Fin 8) (h : Half) (s : State) : State :=
  raise classCaptureDone (slotSource i)
    { s.setRecord i h { s.record i h with state := .full, captureNumber := s.capture.counter } with
      capture := { s.capture with counter := s.capture.counter + 1, index := s.capture.index ++ [(i, h)] } }

/-- A half becomes FULL (R84); a slot STALLED under OVERWRITE reclaims it at once (R74). -/
def halfFull (i : Fin 8) (h : Half) (s : State) : State :=
  if (s.slot i).live.state = .stalled ∧ (s.slot i).config.full = .overwrite then reclaim i h (listFull i h s)
  else listFull i h s

/-- A write-queue entry belongs to the half it names (R82). -/
def QueueEntry.belongs (e : QueueEntry) (i : Fin 8) (h : Half) : Bool :=
  decide (e.slot = i) && decide (e.half = h)

/-- The entries of the burst in progress, if there is one. -/
def MemCtl.burstEntries (c : MemCtl) : List QueueEntry :=
  match c.op with
  | some (.burst es) => es
  | _ => []

/-- Some queued entry or the burst in progress belongs to the half (R82, R83). -/
def State.halfWaits (s : State) (i : Fin 8) (h : Half) : Bool :=
  s.queue.any (·.belongs i h) || s.ctl.burstEntries.any (·.belongs i h)

/-- A SEALING half becomes FULL at once when nothing that belongs to it waits (R83). -/
def sealIfWritten (i : Fin 8) (h : Half) (s : State) : State :=
  if (s.record i h).state = .sealing ∧ s.halfWaits i h = false then halfFull i h s else s

/-! ## Completion (R71, R72) -/

/-- The ACTIVE half goes to SEALING with the last stored time as its last sample time, and leaves the slot (R71, steps 1 and 2). -/
def Slot.sealed (x : Slot) (h : Half) : Slot :=
  { x.setRecord h { x.record h with state := .sealing, lastSampleTime := x.live.lastStored } with
    live := { x.live with active := none } }

/-- The slot goes to IDLE or STALLED (R57). -/
def toRest (i : Fin 8) (state : SlotState) (s : State) : State :=
  s.setLive i (SlotLive.cleared state)

/-- The slot takes its next half from the other half of the pair (R71, step 3). -/
def nextHalf (i : Fin 8) (other : Half) (s : State) : State :=
  match (s.record i other).state, (s.slot i).config.full with
  | .empty, _ => takeHalf i other s
  | .full, .overwrite => reclaim i other s
  | .full, .stop => toRest i .stalled s
  | .sealing, _ => toRest i .stalled s
  | .active, _ => toRest i .stalled s

/-- A capture completes at its post target (R71). -/
def complete (i : Fin 8) (h : Half) (s : State) : State :=
  nextHalf i h.other (s.setSlot i ((s.slot i).sealed h))

/-- The record of a TRUNCATED capture (R72): when no post sample was stored, the start position is the one the first post sample
would have given. -/
def Slot.truncatedRecord (x : Slot) (h : Half) : CaptureRecord :=
  { x.record h with
    truncated := true
    start := if x.live.firstPostPending then ringSub x.live.writePos (x.record h).preCount x.config.size else (x.record h).start }

/-- A TRUNCATED completion (R72): the half seals, the slot goes to IDLE, and the half may become FULL at once (R83). -/
def truncate (i : Fin 8) (h : Half) (s : State) : State :=
  sealIfWritten i h
    (toRest i .idle (s.setSlot i (((s.slot i).setRecord h ((s.slot i).truncatedRecord h)).sealed h)))

/-! ## Recording (R61, R62, R66, R67) -/

/-- The record after a sample of time t has been stored at the write position: filled rises to at most S, and in POST the first post
sample gives the start position, a FORCE-TRIGGER capture its trigger time, and every sample one more post count. -/
def Slot.storedRecord (x : Slot) (h : Half) (t : Tick) : CaptureRecord :=
  let r := { x.record h with filled := min ((x.record h).filled + 1) x.config.size }
  if x.live.state = .post then
    if x.live.firstPostPending then
      { r with
        start := ringSub x.live.writePos r.preCount x.config.size
        triggerTime := if r.triggerSource = 32 then t else r.triggerTime
        postCount := r.postCount + 1 }
    else { r with postCount := r.postCount + 1 }
  else r

/-- The slot after a sample has been stored (R61, R66). -/
def Slot.stored (x : Slot) (h : Half) (t : Tick) : Slot :=
  { x.setRecord h (x.storedRecord h t) with
    live := { x.live with
      writePos := (x.live.writePos + 1) % x.config.size
      lastStored := t
      firstPostPending := if x.live.state = .post then false else x.live.firstPostPending } }

/-- The write-queue entry of a sample stored now (R61, R99). -/
def Slot.entry (x : Slot) (i : Fin 8) (h : Half) (v : Sample) : QueueEntry where
  slot := i
  half := h
  position := x.live.writePos
  value := v
  address := x.config.address h x.live.writePos

/-- After a post sample has been stored: the capture completes at its target, or EARLY is raised when exactly E samples remain
(R67). -/
def afterPost (i : Fin 8) (h : Half) (s : State) : State :=
  if (s.record i h).postCount = (s.slot i).live.postTarget then complete i h s
  else if (s.slot i).config.early ≠ 0 ∧ (s.slot i).live.earlyRaised = false ∧
      (s.record i h).postCount + (s.slot i).config.early = (s.slot i).live.postTarget then
    raise classEarly (slotSource i) (s.setLive i { (s.slot i).live with earlyRaised := true })
  else s

/-- A sample that finds the write queue full is lost and counted (R62). -/
def loseSample (i : Fin 8) (h : Half) (s : State) : State :=
  raise classSamplesLost (slotSource i)
    (s.setRecord i h { s.record i h with lost := satSucc 65535 (s.record i h).lost })

/-- A sample is stored: the entry is appended (an arrival of work), then the slot moves on, then R67 is applied in POST. -/
def storeSample (i : Fin 8) (h : Half) (v : Sample) (t : Tick) (s : State) : State :=
  let s1 := workArrives { s with queue := s.queue ++ [(s.slot i).entry i h v] }
  let s2 := s1.setSlot i ((s.slot i).stored h t)
  if (s.slot i).live.state = .post then afterPost i h s2 else s2

/-- A slot receives a sample of its bound channel: stored or lost in ARMED and POST, ignored in IDLE and STALLED (R61 to R63). -/
def slotSample (i : Fin 8) (v : Sample) (t : Tick) (s : State) : State :=
  match (s.slot i).live.state, (s.slot i).live.active with
  | .armed, some h => if Config.queueCapacity ≤ s.queue.length then loseSample i h s else storeSample i h v t s
  | .post, some h => if Config.queueCapacity ≤ s.queue.length then loseSample i h s else storeSample i h v t s
  | .armed, none => s
  | .post, none => s
  | .idle, _ => s
  | .stalled, _ => s

/-! ## Triggers (R64 to R69) -/

/-- A request that finds the slot ARMED is taken (R65). -/
def Slot.triggered (x : Slot) (h : Half) (source : Nat) (t : Tick) : Slot :=
  { x.setRecord h { x.record h with
      triggerSource := source
      triggerTime := t
      preCount := min x.config.pre (x.record h).filled
      postCount := 0 } with
    live := { x.live with state := .post, postTarget := x.config.post, firstPostPending := true, earlyRaised := false } }

/-- A retrigger under IGNORE is counted (R68). -/
def Slot.retriggerIgnored (x : Slot) (h : Half) : Slot :=
  x.setRecord h { x.record h with retriggers := satSucc 255 (x.record h).retriggers }

/-- A retrigger under EXTEND moves the target out, clipped at the half (R69). -/
def Slot.retriggerExtended (x : Slot) (h : Half) : Slot :=
  let r := x.record h
  let clips := decide (x.config.size < r.preCount + (r.postCount + x.config.post))
  { x.setRecord h { r with
      retriggers := satSucc 255 r.retriggers
      extended := true
      clipped := r.clipped || clips } with
    live := { x.live with postTarget := if clips then x.config.size - r.preCount else r.postCount + x.config.post } }

/-- A retrigger, under the slot's policy (R68, R69). -/
def Slot.retriggered (x : Slot) (h : Half) : Slot :=
  match x.config.retrigger with
  | .ignore => x.retriggerIgnored h
  | .extend => x.retriggerExtended h

/-- A trigger request reaches slot i; the answer is the outcome a watch records (R33, R64). A FORCE-TRIGGER has source 32 and
time 0 (R65). -/
def trigger (i : Fin 8) (source : Nat) (t : Tick) (s : State) : State × RequestOutcome :=
  match (s.slot i).live.state with
  | .idle => (s, .refusedIdle)
  | .stalled => (raise classTriggerMissed (slotSource i) s, .refusedStalled)
  | .armed =>
    match (s.slot i).live.active with
    | some h => (s.setSlot i ((s.slot i).triggered h source t), .taken)
    | none => (s, .taken)
  | .post =>
    match (s.slot i).live.active with
    | some h => (s.setSlot i ((s.slot i).retriggered h), .retriggered)
    | none => (s, .retriggered)

/-! ## Gaps (R12) -/

/-- A gap on the channel that binds slot i adds one to its ACTIVE half's gap count. -/
def countGap (i : Fin 8) (s : State) : State :=
  match (s.slot i).live.active with
  | some h => s.setRecord i h { s.record i h with gaps := satSucc 255 (s.record i h).gaps }
  | none => s

end Sys2Proof.Machine
end

