-- ==== Sys2Proof/Machine/Watches.lean ====
section
/-! DEFINITION. What a watch does with a sample, by kind and state, and what firing does (spec/02, spec/03). -/

namespace Sys2Proof.Machine

/-! ## Sides and edges (R23, R29, R40): signed values, exact integers -/

def WatchConfig.a (c : WatchConfig) : Int :=
  c.thresholdA.toInt

def WatchConfig.b (c : WatchConfig) : Int :=
  c.thresholdB.toInt

def WatchConfig.h (c : WatchConfig) : Int :=
  c.hysteresis.toNat

/-- The sides of a condition (R23). -/
inductive Side
  | onTrue
  | onFalse
  | hold
deriving DecidableEq, Repr

def sideOf (isTrue isFalse : Bool) : Side :=
  if isTrue then .onTrue else if isFalse then .onFalse else .hold

/-- The side of a sample under a level kind (R23); the other kinds do not sort by sides. -/
def WatchConfig.side (c : WatchConfig) (v : Int) : Side :=
  match c.kind with
  | .above => sideOf (decide (c.a < v)) (decide (v < c.a - c.h))
  | .below => sideOf (decide (v < c.a)) (decide (c.a + c.h < v))
  | .bandOut => sideOf (decide (c.a < v) || decide (v < c.b)) (decide (c.b + c.h ≤ v) && decide (v ≤ c.a - c.h))
  | .rise => .hold
  | .fall => .hold
  | .width => .hold
  | .period => .hold

/-- What a sample is to a crossing or measuring watch: beyond A in the direction watched (it fires R29's watch, it is R40's leading
sample), back past the far side of the band (it primes R29's watch, it is R40's trailing sample), or neither. -/
inductive Edge
  | leading
  | trailing
  | neither
deriving DecidableEq, Repr

def edgeOf (isLeading isTrailing : Bool) : Edge :=
  if isLeading then .leading else if isTrailing then .trailing else .neither

/-- The direction a crossing or measuring watch looks in. -/
def WatchConfig.rising (c : WatchConfig) : Bool :=
  match c.kind with
  | .rise => true
  | .fall => false
  | .width => decide (c.polarity = .rising)
  | .period => decide (c.polarity = .rising)
  | .above => true
  | .below => true
  | .bandOut => true

/-- R29 and R40: rising, leading is s > A and trailing s < A - H; falling, leading is s < A and trailing s > A + H. -/
def WatchConfig.edge (c : WatchConfig) (v : Int) : Edge :=
  if c.rising then edgeOf (decide (c.a < v)) (decide (v < c.a - c.h))
  else edgeOf (decide (v < c.a)) (decide (c.a + c.h < v))

/-! ## Start states (R30) -/

def WatchConfig.startState (c : WatchConfig) : WatchState :=
  match c.kind, c.sensitivity with
  | .above, .level => .clear
  | .below, .level => .clear
  | .bandOut, .level => .clear
  | .above, .edge => .unprimed
  | .below, .edge => .unprimed
  | .bandOut, .edge => .unprimed
  | .rise, _ => .unprimed
  | .fall, _ => .unprimed
  | .width, _ => .unprimed
  | .period, _ => .unprimed

/-- The watch entering a state with nothing in progress: qualify progress 0, measurement start time 0, edge phase AWAY. -/
def Watch.entering (x : Watch) (state : WatchState) : Watch :=
  { x with state := state, progress := 0, startTime := 0, phase := .away }

/-- The watch in its start state (R30). -/
def Watch.started (x : Watch) : Watch :=
  x.entering x.config.startState

/-- The watch in OFF (R18, R35). -/
def Watch.stopped (x : Watch) : Watch :=
  x.entering .off

/-! ## One sample (R25 to R29, R42 to R47); the second part says whether the watch fires -/

/-- A true sample brings the count of consecutive true samples to k: at Q the watch fires and goes to ASSERTED (R26). -/
def Watch.qualified (x : Watch) (k : Nat) : Watch × Bool :=
  if x.config.qualify ≤ k then ({ x with state := .asserted, progress := 0 }, true)
  else ({ x with state := .qualifying, progress := k }, false)

/-- A level kind's move (R25 to R28). -/
def Watch.levelMove (x : Watch) (side : Side) : Watch × Bool :=
  match x.state, side with
  | .unprimed, .onFalse => ({ x with state := .clear }, false)
  | .unprimed, .onTrue => (x, false)
  | .unprimed, .hold => (x, false)
  | .clear, .onTrue => x.qualified 1
  | .clear, .onFalse => (x, false)
  | .clear, .hold => (x, false)
  | .qualifying, .onTrue => x.qualified (x.progress + 1)
  | .qualifying, .onFalse => ({ x with state := .clear, progress := 0 }, false)
  | .qualifying, .hold => ({ x with state := .clear, progress := 0 }, false)
  | .asserted, .onFalse => ({ x with state := .clear }, false)
  | .asserted, .onTrue => (x, decide (x.config.sensitivity = .level))
  | .asserted, .hold => (x, false)
  | .off, _ => (x, false)
  | .measuring, _ => (x, false)

/-- A crossing kind's move (R29). -/
def Watch.crossingMove (x : Watch) (edge : Edge) : Watch × Bool :=
  match x.state, edge with
  | .unprimed, .trailing => ({ x with state := .clear }, false)
  | .unprimed, .leading => (x, false)
  | .unprimed, .neither => (x, false)
  | .clear, .leading => ({ x with state := .unprimed }, true)
  | .clear, .trailing => (x, false)
  | .clear, .neither => (x, false)
  | .qualifying, _ => (x, false)
  | .asserted, _ => (x, false)
  | .off, _ => (x, false)
  | .measuring, _ => (x, false)

/-- A result is outside the window (R47). -/
def WatchConfig.outside (c : WatchConfig) (ticks : BitVec 24) : Bool :=
  decide (ticks < c.windowMin) || decide (c.windowMax < ticks)

/-- The ticks from the measurement's start to t, modulo 2^32 (R48). -/
def Watch.elapsed (x : Watch) (t : Tick) : Tick :=
  t - x.startTime

/-- The elapsed ticks as a result; R44 keeps them within 24 bits. -/
def Watch.measured (x : Watch) (t : Tick) : BitVec 24 :=
  BitVec.ofNat 24 (x.elapsed t).toNat

/-- A measuring kind's move in MEASURING, once no overrun was found (R45, R46). -/
def Watch.measureMove (x : Watch) (edge : Edge) (t : Tick) : Watch × Bool :=
  match x.config.kind, edge, x.phase with
  | .width, .trailing, _ =>
    ({ x.entering .clear with lastResult := .result (x.measured t) }, x.config.outside (x.measured t))
  | .period, .trailing, _ => ({ x with phase := .back }, false)
  | .period, .leading, .back =>
    ({ x with lastResult := .result (x.measured t), startTime := t, phase := .away }, x.config.outside (x.measured t))
  | _, _, _ => (x, false)

/-- A measuring kind's move (R42 to R46). -/
def Watch.measuringMove (x : Watch) (edge : Edge) (t : Tick) : Watch × Bool :=
  match x.state with
  | .unprimed => if edge = .trailing then ({ x with state := .clear }, false) else (x, false)
  | .clear => if edge = .leading then ({ x with state := .measuring, startTime := t, phase := .away }, false) else (x, false)
  | .measuring =>
    if Config.measurementLimit < (x.elapsed t).toNat then ({ x.entering .unprimed with lastResult := .overrun }, true)
    else x.measureMove edge t
  | .off => (x, false)
  | .qualifying => (x, false)
  | .asserted => (x, false)

/-- What a watch does with a sample handed to it; an OFF watch does nothing (R24, R37). -/
def Watch.onSample (x : Watch) (v : Sample) (t : Tick) : Watch × Bool :=
  match x.config.kind with
  | .above => x.levelMove (x.config.side v.toInt)
  | .below => x.levelMove (x.config.side v.toInt)
  | .bandOut => x.levelMove (x.config.side v.toInt)
  | .rise => x.crossingMove (x.config.edge v.toInt)
  | .fall => x.crossingMove (x.config.edge v.toInt)
  | .width => x.measuringMove (x.config.edge v.toInt) t
  | .period => x.measuringMove (x.config.edge v.toInt) t

/-! ## Firing (R31, R32) -/

/-- The trigger gate, then the request to the target slot: the outcome is GATED when the gate is CLOSED. -/
def requestTrigger (w : Fin 32) (t : Tick) (s : State) : State × RequestOutcome :=
  if s.capture.gateOpen then trigger (s.watch w).config.target w.val t s else (s, .gated)

/-- A watch fires on a sample of time t (R31). -/
def fireWatch (w : Fin 32) (t : Tick) (s : State) : State :=
  let (s1, outcome) := requestTrigger w t s
  raise classWatchFired w (s1.setWatch w { s1.watch w with lastFire := t, lastOutcome := outcome })

/-- A watch receives a sample. -/
def watchSample (w : Fin 32) (v : Sample) (t : Tick) (s : State) : State :=
  let (x, fires) := (s.watch w).onSample v t
  if fires then fireWatch w t (s.setWatch w x) else s.setWatch w x

end Sys2Proof.Machine
end

