-- ==== Sys2Proof/Machine/ChannelMap.lean ====
section
/-! DEFINITION. Taking a sample frame: lookup, sequence check, gaps, sample times and the order of delivery (spec/01). -/

namespace Sys2Proof.Machine

/-- The valid entry whose source ID a frame carries (R9). -/
def State.lookup (s : State) (source : BitVec 12) : Option (Fin 64) :=
  (List.finRange 64).find? fun e => (s.channel e).valid && (s.channel e).sourceId == source

/-- The sequence number differs from the one a SYNCED entry expected (R10). -/
def MapEntry.gap (x : MapEntry) (sequence : BitVec 8) : Bool :=
  decide (x.sync = .synced) && decide (sequence ≠ x.expected)

/-- The entry after it has taken a frame (R10). -/
def MapEntry.took (x : MapEntry) (sequence : BitVec 8) (timestamp : Tick) : MapEntry :=
  { x with sync := .synced, expected := sequence + 1, lastTimestamp := timestamp }

/-- The entry after a write or RESET-CAPTURE: UNSYNCED, expected sequence 0, last frame timestamp 0 (R2, R7). -/
def MapEntry.unsync (x : MapEntry) : MapEntry :=
  { x with sync := .unsynced, expected := 0, lastTimestamp := 0 }

/-- Every watch that references the entry and is not OFF returns to its start state (R11). -/
def restartWatches (e : Fin 64) (s : State) : State :=
  { s with watches := Vector.ofFn fun w =>
      if (s.watch w).config.channel = e ∧ (s.watch w).state ≠ .off then (s.watch w).started else s.watch w }

/-- A gap: watches restart, and the bound slot's ACTIVE half counts it (R11, R12). -/
def takeGap (e : Fin 64) (bound : Option (Fin 8)) (s : State) : State :=
  match bound with
  | some i => countGap i (restartWatches e s)
  | none => restartWatches e s

/-- The time of sample i (R13). -/
def sampleTime (timestamp : Tick) (interval : BitVec 16) (i : Nat) : Tick :=
  timestamp + BitVec.ofNat 32 (i * interval.toNat)

/-! ## Handing samples on (R14) -/

/-- A watch's turn with a sample of an entry: it receives the sample when it references the entry. -/
def handToWatch (e : Fin 64) (w : Fin 32) (v : Sample) (t : Tick) (s : State) : State :=
  if (s.watch w).config.channel = e then watchSample w v t s else s

/-- The bound slot's turn with a sample, if a slot is bound. -/
def handToSlot (bound : Option (Fin 8)) (v : Sample) (t : Tick) (s : State) : State :=
  match bound with
  | some i => slotSample i v t s
  | none => s

/-- The handing after a turn: the next watch, the slot after watch 31, the next sample after the slot; none after the last. -/
def Handing.next (x : Handing) : Option Handing :=
  if x.turn < 32 then some { x with turn := x.turn + 1 }
  else
    match x.rest.tail with
    | [] => none
    | y :: later => some { x with turn := 0, rest := y :: later }

/-- One turn of the frame being handed on. -/
def takeTurn (s : State) : State :=
  match s.handing with
  | none => s
  | some x =>
    match x.rest with
    | [] => { s with handing := none }
    | (v, t) :: _ =>
      if h : x.turn < 32 then handToWatch x.entry ⟨x.turn, h⟩ v t { s with handing := x.next }
      else handToSlot x.bound v t { s with handing := x.next }

/-- So many turns; none is left once the last sample has been handed on. -/
def takeTurns : Nat → State → State
  | 0, s => s
  | n + 1, s => takeTurns n (takeTurn s)

/-- Every turn that is left of the frame being handed on, to its last. -/
def finishHanding (s : State) : State :=
  match s.handing with
  | none => s
  | some x => { takeTurns (Config.sampleTurns * x.rest.length) s with handing := none }

/-! ## Taking a frame (R9 to R13) -/

/-- The samples of a frame with their times, by the interval of the entry (R13). -/
def timedSamples (interval : BitVec 16) (f : Frame) : List (Sample × Tick) :=
  (frameSamples f).zipIdx.map fun p => (p.1, sampleTime (sampleTimestamp f) interval p.2)

/-- The matching entry takes a frame (R10 to R12), whose samples are then to be handed on with the interval and binding found now
(R9). -/
def takeFrame (e : Fin 64) (f : Frame) (s : State) : State :=
  let x := s.channel e
  let s1 := s.setChannel e (x.took (sampleSequence f) (sampleTimestamp f))
  let s2 := if x.gap (sampleSequence f) then takeGap e x.bound s1 else s1
  { s2 with handing := some ⟨e, x.bound, 0, timedSamples x.interval f⟩ }

/-- A frame is offered to the channel map (R8, R9). -/
def offerToMap (f : Frame) (s : State) : State :=
  match s.lookup (sampleSource f) with
  | some e => takeFrame e f s
  | none => s

end Sys2Proof.Machine
end

