-- ==== Sys2Proof/Machine/Endpoint.lean ====
section
/-! DEFINITION. The management endpoint: taking requests, contexts, the refusal slot, the fault record, and the frame around every
execution (spec/10). -/

namespace Sys2Proof.Machine

/-! ## Taking a request (R165, R166, R169, R170) -/

/-- The lowest-numbered FREE context (R169). -/
def State.freeContext (s : State) : Option (Fin 4) :=
  (List.finRange 4).find? fun i => (s.context i).isFree

/-- The request takes a context and becomes WAITING there, last in acceptance order. -/
def acceptRequest (i : Fin 4) (r : Request) (s : State) : State :=
  let s1 := s.setContext i (.waiting ⟨r, s.ep.accepted⟩)
  { s1 with ep := { s1.ep with accepted := s1.ep.accepted + 1 } }

/-- The BUSY response of a refused request (R170). -/
def busyResponse (r : Request) : Response :=
  ⟨r.tag, .busy, []⟩

/-- A request that finds no FREE context enters the empty refusal slot, its BUSY response then being offered, or is discarded. -/
def refuseRequest (r : Request) (s : State) : State :=
  match s.ep.refusal with
  | none => dChoose { s with ep := { s.ep with refusal := some ⟨r, busyResponse r⟩ } }
  | some _ => s

/-- The fault record filled from a failed request (R167). -/
def Endpoint.recordOf (e : Endpoint) (r : Request) : FaultRecord where
  tag := r.tag
  op := r.op
  code := r.space
  cause := .check
  filledAt := e.accepted

/-- A check failure fills an invalid fault record and raises FAULT source 0 (R166). -/
def checkFailure (r : Request) (s : State) : State :=
  raise classFault srcCheckFault
    { s with ep := { s.ep with fault := match s.ep.fault with | none => some (s.ep.recordOf r) | some x => some x } }

/-- The endpoint takes a good MGMT-REQ: the check octet first, then a context, the refusal slot or nothing. -/
def takeRequest (r : Request) (s : State) : State :=
  if r.checkSum ≠ 0 then checkFailure r s
  else if r.broadcast then
    if r.op = opWrite ∨ r.op = opCommand then
      match s.freeContext with
      | some i => acceptRequest i r s
      | none => s
    else s
  else
    match s.freeContext with
    | some i => acceptRequest i r s
    | none => refuseRequest r s

/-! ## Execution (R171, R172) -/

/-- The context whose request executes next: the oldest WAITING one, while no context is READING (R171). -/
def State.nextExecution (s : State) : Option (Fin 4 × Taken) :=
  if (List.finRange 4).any fun i => (s.context i).isReading then none
  else
    match s.oldest Context.isWaiting with
    | none => none
    | some i =>
      match s.context i with
      | .waiting t => some (i, t)
      | .free => none
      | .reading _ => none
      | .answering _ _ => none

/-- The fault test: STOP, a valid record, and the record filled before the request took its context (R168). -/
def Endpoint.faultHolds (e : Endpoint) (t : Taken) : Bool :=
  decide (e.mode = .stop) &&
    match e.fault with
    | some f => decide (f.filledAt ≤ t.order)
    | none => false

/-- WRITE, or a COMMAND other than CLEAR-FAULT: the requests the fault test holds back (R168). -/
def Request.heldByFault (r : Request) : Bool :=
  r.op == opWrite || (r.op == opCommand && !decide (r.space.toNat = codeClearFault))

/-- The checks that come before those of the op: op and length, fault test, command code (R172). -/
def Endpoint.refuses (e : Endpoint) (t : Taken) : Option Status :=
  if !t.request.opDefined || !t.request.lengthFits then some .badOp
  else if t.request.heldByFault && e.faultHolds t then some .faulted
  else if t.request.op == opCommand && !t.request.codeDefined then some .badOp
  else none

/-- What an execution comes to: a status with the data words of its response, or a FETCH read placed at the controller. -/
inductive Reply
  | answer (status : Status) (words : List MgmtWord)
  | placed
deriving DecidableEq, Repr

/-- An execution of a request: the part's state as it stands before to the state after, and the reply. -/
abbrev Execution := Fin 4 → Request → State → State × Reply

/-- The context after its request has executed: FREE for a broadcast, else ANSWERING with its response (R165, R171, R173). -/
def answered (t : Taken) (status : Status) (words : List MgmtWord) : Context :=
  if t.request.broadcast then .free else .answering t ⟨t.request.tag, status, words⟩

/-- The reply is put into the context: a response is passed to the D transmit arbiter (R160), a FETCH read is work arriving at the
memory controller (R107, R112). -/
def settle (i : Fin 4) (t : Taken) (reply : Reply) (s : State) : State :=
  match reply with
  | .answer status words => dChoose (s.setContext i (answered t status words))
  | .placed => workArrives (s.setContext i (.reading t))

/-- The request of context i executes: R172's first checks, then the op's. -/
def executeIn (run : Execution) (i : Fin 4) (t : Taken) (s : State) : State :=
  match s.ep.refuses t with
  | some status => settle i t (.answer status []) s
  | none =>
    let (s1, reply) := run i t.request s
    settle i t reply s1

/-- A command that executes requests of one form: the next request executes when it has that form; otherwise the command names no
event of this state and nothing happens (log entry 1). -/
def execute (form : Request → Bool) (run : Execution) (s : State) : State :=
  match s.nextExecution with
  | some (i, t) => if form t.request then executeIn run i t s else s
  | none => s

/-- A refused request changes nothing (R172). -/
def refusedWith (status : Status) (s : State) : State × Reply :=
  (s, .answer status [])

/-- An accepted request without data words. -/
def acceptedWith (s : State) : State × Reply :=
  (s, .answer .ok [])

end Sys2Proof.Machine
end

