-- ==== Sys2Proof/Machine/Link.lean ====
section
/-! DEFINITION. The link ports: alignment, reception, routing and the forward queues, and the commands that bring symbols
(spec/09). -/

namespace Sys2Proof.Machine

/-! ## Sweeps (R149, R150) -/

/-- A new sweep at tap 0 with no symbol observed and previous tap value none. -/
def PortState.newSweep (x : PortState) : PortState :=
  { x with receiver := .seek, tap := 0, sweep := .sweeping, observed := [], previous := none }

/-- A symbol is TRAIN with its phase marker seen as given. -/
def isMarker (value : Bool) : Symbol → Bool
  | .train marker _ => marker == value
  | .data _ => false
  | .idle => false
  | .startFrame => false
  | .endFrame => false
  | .invalid => false

/-- The value of a tap from the symbols observed at it (R149). -/
def tapValueOf (observed : List Symbol) : TapValue :=
  if observed.all (isMarker false) then .zero else if observed.all (isMarker true) then .one else .unsteady

/-- The receiver locks: it keeps its tap and goes to LOCKED with both runs 0. -/
def PortState.lockedOn (x : PortState) : PortState :=
  { x with receiver := .locked, observed := [], validRun := 0, invalidRun := 0 }

/-- A failed sweep pauses at tap 0 with previous tap value none (R150). -/
def PortState.paused (x : PortState) : PortState :=
  { x with tap := 0, sweep := .pausing Config.sweepPause, observed := [], previous := none }

/-- The failure count after a failed sweep: at most 3 at the U port, saturating at 255 at the D port (R148, R150). -/
def failureCount : Port → Nat → Nat
  | .u, n => satSucc 3 n
  | .d, n => satSucc 255 n

/-- A sweep that observed tap 63 fails (R150): the U port's third failure leaves it FAILED with STATE source 2 raised. -/
def failSweep (p : Port) (x : PortState) (s : State) : State :=
  let x1 := { x with failures := failureCount p x.failures }
  match p with
  | .u =>
    if 3 ≤ x1.failures then
      raise classState srcUFailed (s.setPort .u { x1 with receiver := .failed, observed := [] })
    else s.setPort .u x1.paused
  | .d => s.setPort .d x1.paused

/-- The tap's value is judged: lock, advance, or fail after tap 63 (R149). -/
def judgeTap (p : Port) (x : PortState) (s : State) : State :=
  let value := tapValueOf x.observed
  if 1 ≤ x.tap.toNat ∧ value = .one ∧ x.previous = some .zero then s.setPort p x.lockedOn
  else
    let x1 := { x with previous := some value }
    if x.tap.toNat < 63 then s.setPort p { x1 with tap := x1.tap + 1, observed := [] } else failSweep p x1 s

/-- A symbol received in SEEK: observed at the present tap, and the 16th judges it; while pausing it is not observed (R149). -/
def seekSymbol (p : Port) (symbol : Symbol) (s : State) : State :=
  let x := s.port p
  match x.sweep with
  | .pausing _ => s
  | .sweeping =>
    let x1 := { x with observed := x.observed ++ [symbol] }
    if x1.observed.length < Config.tapSymbols then s.setPort p x1 else judgeTap p x1 s

/-! ## LOCKED (R151) -/

/-- The valid run and invalid run after a symbol received in LOCKED (R151). -/
def lockedRuns (symbol : Symbol) (validRun invalidRun : Nat) : Nat × Nat :=
  match symbol with
  | .idle => (validRun + 1, 0)
  | .data _ => (validRun + 1, 0)
  | .train _ true => (validRun + 1, 0)
  | .train _ false => (0, 0)
  | .startFrame => (validRun, 0)
  | .endFrame => (validRun, 0)
  | .invalid => (0, invalidRun + 1)

/-- The entry to UP is a decision point of the port's transmitter (R160, R162). -/
def chooseAt (p : Port) (s : State) : State :=
  match p with
  | .u => uChoose s
  | .d => dChoose s

/-- The receiver goes to UP: failure count 0, invalid run 0, the transmitter may begin a frame, and the port-up source is raised. -/
def goUp (p : Port) (x : PortState) (s : State) : State :=
  raise classState (srcPortUp p) (chooseAt p (s.setPort p { x with receiver := .up, failures := 0, invalidRun := 0 }))

/-- A symbol received in LOCKED (R151). -/
def lockedSymbol (p : Port) (symbol : Symbol) (s : State) : State :=
  let x := s.port p
  let runs := lockedRuns symbol x.validRun x.invalidRun
  let x1 := { x with validRun := runs.1, invalidRun := runs.2 }
  if Config.validRunLimit ≤ runs.1 then goUp p x1 s
  else if Config.invalidRunLimit ≤ runs.2 then s.setPort p x1.newSweep
  else s.setPort p x1

/-! ## Forward queues (R159) -/

/-- A frame is offered to the U-to-D forward queue: appended, a candidate at the D transmit arbiter, or dropped with STATE source 5. -/
def forwardU2D (f : Frame) (s : State) : State :=
  if s.link.u2d.length < Config.forwardCapacity then dChoose { s with link := { s.link with u2d := s.link.u2d ++ [f] } }
  else raise classState srcDropU2D s

/-- A frame is offered to the D-to-U forward queue, which the U port's transmitter sends, or dropped with STATE source 6. -/
def forwardD2U (f : Frame) (s : State) : State :=
  if s.link.d2u.length < Config.forwardCapacity then uChoose { s with link := { s.link with d2u := s.link.d2u ++ [f] } }
  else raise classState srcDropD2U s

/-! ## Routing (R157, R158) -/

/-- A frame completed at the U port: offered to the forward queue, and a good SAMPLE frame to the channel map. The forward queue comes
first, so a drop's STATE source is raised before any source that the frame's samples raise (log entry 10). -/
def routeU (f : Frame) (s : State) : State :=
  let s1 := forwardU2D f s
  if offeredToMap f then offerToMap f s1 else s1

/-- The destination field of a request frame. -/
def frameDestination (f : Frame) : BitVec 6 :=
  (octetAt f 1).extractLsb' 0 6

/-- A good MGMT-REQ of 14 octets or more (R158). -/
def isRequest (f : Frame) : Bool :=
  goodCrc f && frameKind f == 2 && decide (14 ≤ f.length)

/-- The endpoint takes a frame: a request to the node address or to broadcast (R158). -/
def takenByEndpoint (node : BitVec 6) (f : Frame) : Bool :=
  isRequest f && (frameDestination f == node || frameDestination f == Config.broadcastAddress)

/-- The frame is offered to the D-to-U queue: all but a request to the node address alone (R158). -/
def offeredUpstream (node : BitVec 6) (f : Frame) : Bool :=
  !(isRequest f && frameDestination f == node && !(frameDestination f == Config.broadcastAddress))

/-- A frame completed at the D port is routed to the endpoint, upstream, or to both. -/
def routeD (f : Frame) (s : State) : State :=
  let s1 := if takenByEndpoint s.ep.nodeAddress f then takeRequest (Request.ofFrame f) s else s
  if offeredUpstream s.ep.nodeAddress f then forwardD2U f s1 else s1

/-- A frame completed at a port. -/
def route (p : Port) (f : Frame) (s : State) : State :=
  match p with
  | .u => routeU f s
  | .d => routeD f s

/-! ## UP: reception (R152, R154, R155) -/

/-- A receiver leaves UP: the frame under reception goes and a new sweep begins (R152, R163). -/
def PortState.dropped (x : PortState) : PortState :=
  { x.newSweep with frame := none }

/-- A data symbol inside a frame: kept up to 78 octets; the 79th marks the frame oversize and raises the port's FAULT source once. -/
def frameOctet (p : Port) (o : Octet) (f : RxFrame) (s : State) : State :=
  if f.oversize then s
  else if f.octets.length < Config.frameLimit then s.setPort p { s.port p with frame := some { f with octets := f.octets ++ [o] } }
  else raise classFault (srcOversize p) (s.setPort p { s.port p with frame := some { f with oversize := true } })

/-- END inside a frame: an oversize frame is discarded, any other is complete (R154, R155). -/
def frameEnd (p : Port) (f : RxFrame) (s : State) : State :=
  let s1 := s.setPort p { s.port p with frame := none }
  if f.oversize then s1 else route p f.octets s1

/-- Assembly of frames from a symbol received in UP (R154). -/
def assemble (p : Port) (symbol : Symbol) (s : State) : State :=
  match symbol, (s.port p).frame with
  | .startFrame, _ => s.setPort p { s.port p with frame := some ⟨[], false⟩ }
  | .data o, some f => frameOctet p o f s
  | .data _, none => s
  | .endFrame, some f => frameEnd p f s
  | .endFrame, none => s
  | .idle, _ => s.setPort p { s.port p with frame := none }
  | .train _ _, _ => s.setPort p { s.port p with frame := none }
  | .invalid, _ => s.setPort p { s.port p with frame := none }

/-- The invalid run after a symbol received in UP (R152). -/
def upRun (symbol : Symbol) (invalidRun : Nat) : Nat :=
  match symbol with
  | .train _ _ => invalidRun + 1
  | .invalid => invalidRun + 1
  | .data _ => 0
  | .idle => 0
  | .startFrame => 0
  | .endFrame => 0

/-- Loss of alignment (R152): the frame under reception is discarded, a new sweep begins, the port-down source is raised. -/
def loseAlignment (p : Port) (s : State) : State :=
  raise classState (srcPortDown p) (s.setPort p (s.port p).dropped)

/-- The receiver is UP and holds a frame under reception that is not oversize (R154). -/
def State.frameOpen (s : State) (p : Port) : Bool :=
  match (s.port p).receiver, (s.port p).frame with
  | .up, some f => !f.oversize
  | _, _ => false

/-- END is about to complete a frame at the U port: what is left of an earlier frame is handed on first, so that samples go on in the
order of their frames (R14, log entry 19). -/
def settleEarlier (p : Port) (symbol : Symbol) (s : State) : State :=
  if p = .u ∧ symbol = .endFrame ∧ s.frameOpen .u = true then finishHanding s else s

/-- A symbol received in UP. -/
def upSymbol (p : Port) (symbol : Symbol) (s : State) : State :=
  let s1 := s.setPort p { s.port p with invalidRun := upRun symbol (s.port p).invalidRun }
  if Config.invalidRunLimit ≤ (s1.port p).invalidRun then loseAlignment p s1 else assemble p symbol s1

/-- A symbol received by a port, whatever its receiver's state (R149, R150, R151, R152, R154). -/
def receiveSymbol (p : Port) (symbol : Symbol) (s : State) : State :=
  match (s.port p).receiver with
  | .seek => seekSymbol p symbol s
  | .locked => lockedSymbol p symbol s
  | .up => upSymbol p symbol (settleEarlier p symbol s)
  | .failed => s

/-! ## The conditions that name the symbol commands -/

/-- The receiver sweeps, and this many more symbols complete the 16 at its tap (R149). -/
def State.awaitsTap (s : State) (p : Port) (n : Nat) : Bool :=
  decide ((s.port p).receiver = .seek) && decide ((s.port p).sweep = .sweeping) &&
    decide ((s.port p).observed.length + n = Config.tapSymbols) && decide (1 ≤ n)

/-- The receiver is LOCKED and this symbol brings its valid run to 8 (R151). -/
def State.comesUp (s : State) (p : Port) (symbol : Symbol) : Bool :=
  decide ((s.port p).receiver = .locked) &&
    decide (Config.validRunLimit ≤ (lockedRuns symbol (s.port p).validRun (s.port p).invalidRun).1)

/-- The receiver is LOCKED and an invalid symbol brings its invalid run to 16 (R151). -/
def State.provesFalse (s : State) (p : Port) : Bool :=
  decide ((s.port p).receiver = .locked) && decide (Config.invalidRunLimit ≤ (s.port p).invalidRun + 1)

/-- The receiver is UP and this symbol brings its invalid run to 16 (R152). -/
def State.losesAlignment (s : State) (p : Port) (symbol : Symbol) : Bool :=
  decide ((s.port p).receiver = .up) && decide (Config.invalidRunLimit ≤ upRun symbol (s.port p).invalidRun)

/-- The receiver is UP and its frame under reception, not yet oversize, holds 78 octets (R155). -/
def State.frameAtLimit (s : State) (p : Port) : Bool :=
  match (s.port p).receiver, (s.port p).frame with
  | .up, some f => !f.oversize && decide (Config.frameLimit ≤ f.octets.length)
  | _, _ => false

/-! ## Commands -/

/-- TAP_VALUE. -/
def execTapValue (p : Port) (symbols : List Symbol) (s : State) : Host.Outcome State Fault Refusal :=
  .next (if s.awaitsTap p symbols.length then symbols.foldl (fun acc x => receiveSymbol p x acc) s else s)

/-- LOCKED_SYMBOL. -/
def execLockedSymbol (p : Port) (symbol : Symbol) (s : State) : Host.Outcome State Fault Refusal :=
  .next (if (s.port p).receiver = .locked then receiveSymbol p symbol s else s)

/-- RECEIVER_UP. -/
def execReceiverUp (p : Port) (symbol : Symbol) (s : State) : Host.Outcome State Fault Refusal :=
  .next (if s.comesUp p symbol then receiveSymbol p symbol s else s)

/-- TAP_PROVED_FALSE. -/
def execTapProvedFalse (p : Port) (s : State) : Host.Outcome State Fault Refusal :=
  .next (if s.provesFalse p then receiveSymbol p .invalid s else s)

/-- SYMBOL_RECEIVED. -/
def execSymbolReceived (p : Port) (symbol : Symbol) (s : State) : Host.Outcome State Fault Refusal :=
  .next (receiveSymbol p symbol s)

/-- OVERSIZE_FRAME. -/
def execOversizeFrame (p : Port) (o : Octet) (s : State) : Host.Outcome State Fault Refusal :=
  .next (if s.frameAtLimit p then receiveSymbol p (.data o) s else s)

/-- LOSS_OF_ALIGNMENT. -/
def execLossOfAlignment (p : Port) (symbol : Symbol) (s : State) : Host.Outcome State Fault Refusal :=
  .next (if s.losesAlignment p symbol then receiveSymbol p symbol s else s)

/-- FRAME_COMPLETED_U: the END of the frame under reception, its samples handed on to the last (R14, R157); with no frame open, the next
turn of the frame being handed on (log entry 19). -/
def execFrameCompletedU (s : State) : Host.Outcome State Fault Refusal :=
  .next (if s.frameOpen .u then finishHanding (receiveSymbol .u .endFrame s) else takeTurn s)

/-- FRAME_COMPLETED_D. -/
def execFrameCompletedD (s : State) : Host.Outcome State Fault Refusal :=
  .next (if s.frameOpen .d then receiveSymbol .d .endFrame s else s)

end Sys2Proof.Machine
end

