-- ==== Sys2Proof/Machine/Spaces.lean ====
section
/-! DEFINITION. What a READ shows of each management space (11.4), word by word. -/

namespace Sys2Proof.Machine

/-- Management words in each space; none for a space the part lacks (10.5). -/
def spaceWords : Nat → Option Nat
  | 0 => some 16
  | 1 => some 256
  | 2 => some 256
  | 3 => some 128
  | 4 => some 17
  | 5 => some 32
  | 6 => some 8
  | _ => none

/-! ## Space 0, CONTROL -/

def CheckMode.code : CheckMode → Nat
  | .stop => 0
  | .proceed => 1

def Receiver.code : Receiver → Nat
  | .seek => 0
  | .locked => 1
  | .up => 2
  | .failed => 3

/-- A port word: receiver state, tap, failure count, and the frames in the queue its transmitter sends from (R148, 11.4). -/
def portWord (x : PortState) (frames : Nat) : MgmtWord :=
  place 0 2 x.receiver.code ||| place 8 6 x.tap.toNat ||| place 16 8 x.failures ||| place 24 4 frames

/-- Word 3: the fault record; 0 while it is not valid (R167). -/
def faultWord (e : Endpoint) : MgmtWord :=
  match e.fault with
  | none => 0
  | some f => place 31 1 1 ||| place 16 8 f.tag.toNat ||| place 8 4 f.op.toNat ||| place 0 8 f.code.toNat

/-- Word 4: the cause, CHECK being 1. -/
def causeWord (e : Endpoint) : MgmtWord :=
  match e.fault with
  | none => 0
  | some f => match f.cause with | .check => 1

def expressCode : Option (Fin 8) → Nat
  | some c => c.val
  | none => 8

def controlWord (s : State) : Nat → MgmtWord
  | 0 => Config.identity
  | 1 => place 0 6 s.ep.nodeAddress.toNat
  | 2 => place 0 2 s.ep.mode.code
  | 3 => faultWord s.ep
  | 4 => causeWord s.ep
  | 5 => place 0 1 (flag s.capture.gateOpen)
  | 6 => place 31 1 (flag s.capture.tableOn) ||| place 0 24 s.capture.tableBase.toNat
  | 7 => place 16 16 s.notices.dispatchBase.toNat ||| place 0 4 s.notices.dispatchShift.val
  | 8 => place 0 16 s.notices.holdoff.toNat
  | 9 => place 0 4 (expressCode s.notices.express)
  | 10 => s.micros
  | 11 => place 0 16 s.capture.counter.toNat
  | 12 => portWord s.uPort s.link.d2u.length
  | 13 => portWord s.dPort s.link.u2d.length
  | _ => 0

/-! ## Space 1, CHANNEL MAP -/

def boundCode : Option (Fin 8) → Nat
  | some i => i.val
  | none => 15

def SyncState.code : SyncState → Nat
  | .unsynced => 0
  | .synced => 1

def MapEntry.word (x : MapEntry) : Nat → MgmtWord
  | 0 => place 31 1 (flag x.valid) ||| place 0 16 x.sourceId.toNat
  | 1 => place 0 16 x.interval.toNat ||| place 16 4 (boundCode x.bound)
  | 2 => place 31 1 x.sync.code ||| place 0 8 x.expected.toNat
  | 3 => x.lastTimestamp
  | _ => 0

def channelWord (s : State) (n : Nat) : MgmtWord :=
  if h : n / 4 < 64 then (s.channel ⟨n / 4, h⟩).word (n % 4) else 0

/-! ## Space 2, WATCH TABLE -/

def WatchKind.code : WatchKind → Nat
  | .above => 0
  | .below => 1
  | .bandOut => 2
  | .rise => 3
  | .fall => 4
  | .width => 5
  | .period => 6

def Sensitivity.code : Sensitivity → Nat
  | .edge => 0
  | .level => 1

def Polarity.code : Polarity → Nat
  | .rising => 0
  | .falling => 1

def WatchState.code : WatchState → Nat
  | .off => 0
  | .unprimed => 1
  | .clear => 2
  | .qualifying => 3
  | .asserted => 4
  | .measuring => 5

def EdgePhase.code : EdgePhase → Nat
  | .away => 0
  | .back => 1

def RequestOutcome.code : RequestOutcome → Nat
  | .none => 0
  | .taken => 1
  | .retriggered => 2
  | .refusedIdle => 3
  | .refusedStalled => 4
  | .gated => 5

def LastResult.code : LastResult → Nat
  | .none => 0
  | .result _ => 1
  | .overrun => 2

/-- The last result's ticks; 0 unless it is a result (11.4). -/
def LastResult.ticks : LastResult → Nat
  | .none => 0
  | .result t => t.toNat
  | .overrun => 0

def Watch.word (x : Watch) : Nat → MgmtWord
  | 0 =>
    place 26 6 x.config.channel.val ||| place 23 3 x.config.target.val ||| place 20 3 x.config.kind.code |||
      place 17 1 x.config.sensitivity.code ||| place 16 1 x.config.polarity.code ||| place 0 15 x.config.hysteresis.toNat
  | 1 => place 16 16 x.config.thresholdA.toNat ||| place 0 16 x.config.thresholdB.toNat
  | 2 => place 24 8 x.config.qualify ||| place 0 24 x.config.windowMin.toNat
  | 3 => place 0 24 x.config.windowMax.toNat
  | 4 =>
    place 0 3 x.state.code ||| place 4 1 x.phase.code ||| place 8 3 x.lastOutcome.code |||
      place 12 2 x.lastResult.code ||| place 16 8 x.progress
  | 5 => place 0 24 x.lastResult.ticks
  | 6 => x.startTime
  | 7 => x.lastFire
  | _ => 0

def watchWord (s : State) (n : Nat) : MgmtWord :=
  if h : n / 8 < 32 then (s.watch ⟨n / 8, h⟩).word (n % 8) else 0

/-! ## Space 3, SLOT TABLE -/

def RetriggerPolicy.code : RetriggerPolicy → Nat
  | .ignore => 0
  | .extend => 1

def FullPolicy.code : FullPolicy → Nat
  | .stop => 0
  | .overwrite => 1

def SlotState.code : SlotState → Nat
  | .idle => 0
  | .armed => 1
  | .post => 2
  | .stalled => 3

def HalfState.code : HalfState → Nat
  | .empty => 0
  | .active => 1
  | .sealing => 2
  | .full => 3

def activeCode : Option Half → Nat
  | some h => h.number
  | none => 3

/-- Words 16s + 13 and 16s + 15: the last stored time while the half is ACTIVE, else the record's last sample time (R184). -/
def Slot.lastTimeWord (x : Slot) (h : Half) : MgmtWord :=
  if (x.record h).state = .active then x.live.lastStored else (x.record h).lastSampleTime

/-- The high bits of a position or count, from bit 16 up. -/
def high (n : Nat) : Nat :=
  n / 65536

def Slot.word (x : Slot) : Nat → MgmtWord
  | 0 =>
    place 0 15 (x.config.base / 512) ||| place 15 10 (x.config.size / 512) ||| place 25 1 x.config.retrigger.code |||
      place 26 1 x.config.full.code ||| place 27 2 (high x.config.pre) ||| place 29 3 (high x.config.post)
  | 1 => place 0 16 x.config.pre ||| place 16 16 x.config.post
  | 2 =>
    place 0 8 x.config.early ||| place 8 6 x.recA.triggerSource ||| place 14 2 x.recA.state.code |||
      place 16 6 x.recB.triggerSource ||| place 22 2 x.recB.state.code |||
      place 24 1 (flag x.recA.extended) ||| place 25 1 (flag x.recA.clipped) ||| place 26 1 (flag x.recA.truncated) |||
      place 27 1 (flag x.recB.extended) ||| place 28 1 (flag x.recB.clipped) ||| place 29 1 (flag x.recB.truncated)
  | 3 =>
    place 0 2 x.live.state.code ||| place 2 1 (flag x.live.earlyRaised) ||| place 3 1 (flag x.live.firstPostPending) |||
      place 4 2 (activeCode x.live.active) ||| place 6 2 (high x.live.writePos) ||| place 8 3 (high x.live.postTarget) |||
      place 11 2 (high x.recA.start) ||| place 13 2 (high x.recA.preCount) ||| place 15 3 (high x.recA.postCount) |||
      place 18 3 (high x.recA.filled) ||| place 21 2 (high x.recB.start) ||| place 23 2 (high x.recB.preCount) |||
      place 25 3 (high x.recB.postCount) ||| place 28 3 (high x.recB.filled)
  | 4 => place 0 16 x.live.writePos ||| place 16 16 x.live.postTarget
  | 5 => place 0 16 x.recA.captureNumber.toNat ||| place 16 16 x.recB.captureNumber.toNat
  | 6 => place 0 16 x.recA.lost ||| place 16 16 x.recB.lost
  | 7 => place 0 8 x.recA.retriggers ||| place 8 8 x.recA.gaps ||| place 16 8 x.recB.retriggers ||| place 24 8 x.recB.gaps
  | 8 => place 0 16 x.recA.start ||| place 16 16 x.recA.preCount
  | 9 => place 0 16 x.recA.postCount ||| place 16 16 x.recA.filled
  | 10 => place 0 16 x.recB.start ||| place 16 16 x.recB.preCount
  | 11 => place 0 16 x.recB.postCount ||| place 16 16 x.recB.filled
  | 12 => x.recA.triggerTime
  | 13 => x.lastTimeWord .a
  | 14 => x.recB.triggerTime
  | 15 => x.lastTimeWord .b
  | _ => 0

def slotWord (s : State) (n : Nat) : MgmtWord :=
  if h : n / 16 < 8 then (s.slot ⟨n / 16, h⟩).word (n % 16) else 0

/-! ## Space 4, CAPTURE INDEX -/

def indexEntryWord (s : State) (e : Fin 8 × Half) : MgmtWord :=
  place 31 1 1 ||| place 24 3 e.1.val ||| place 16 1 e.2.number ||| place 0 16 (s.record e.1 e.2).captureNumber.toNat

def indexWord (s : State) : Nat → MgmtWord
  | 0 => place 0 5 s.capture.index.length
  | n + 1 =>
    match s.capture.index[n]? with
    | some e => indexEntryWord s e
    | none => 0

/-! ## Space 5, NOTICE -/

/-- Word 17: bits 4k + 3 to 4k hold the class at position k + 1. -/
def orderWord (order : Vector (Fin 8) 8) : MgmtWord :=
  (List.finRange 8).foldl (fun w k => w ||| place (4 * k.val) 4 order[k].val) 0

/-- Word 18: the notice slot, the holdoff timer and the ALERT pin. While the slot holds no frame, the class and express bits, which have
then no frame to describe, read 0: the spec does not say, the model's choice (log entry 28). -/
def statusWord (u : NoticeUnit) : MgmtWord :=
  (match u.noticeSlot with
    | some n => place 0 1 1 ||| place 4 3 n.cls.val ||| place 7 1 (flag n.express)
    | none => 0) ||| place 8 1 (flag u.timer.running) ||| place 12 1 (flag u.alert)

def noticeWord (u : NoticeUnit) (n : Nat) : MgmtWord :=
  if h : n < 8 then u.pending[n]
  else if h : n - 8 < 8 then u.enable[n - 8]
  else if n = 16 then u.announced.zeroExtend 32
  else if n = 17 then orderWord u.order
  else if n = 18 then statusWord u
  else 0

/-! ## Space 6, MEMORY -/

def MemState.code : MemState → Nat
  | .uninit => 0
  | .init => 1
  | .ready => 2
  | .entering => 3
  | .hold => 4
  | .exiting => 5

def memoryWord (s : State) : Nat → MgmtWord
  | 0 => place 0 3 s.ctl.state.code ||| place 8 1 (flag s.ctl.holdRequest)
  | 1 => place 0 8 s.queue.length
  | 2 => place 0 16 s.ctl.written.refreshInterval
  | 3 =>
    place 0 4 s.ctl.written.readLatency ||| place 8 4 s.ctl.written.activateToAccess |||
      place 16 4 s.ctl.written.precharge ||| place 24 4 s.ctl.written.minRowOpen
  | _ => 0

/-! ## READ -/

/-- A word of a space as it stands (R174); a word that holds no field reads 0. -/
def spaceWord (s : State) (space n : Nat) : MgmtWord :=
  match space with
  | 0 => controlWord s n
  | 1 => channelWord s n
  | 2 => watchWord s n
  | 3 => slotWord s n
  | 4 => indexWord s n
  | 5 => noticeWord s.notices n
  | 6 => memoryWord s n
  | _ => 0

/-- The words from an index upward. -/
def readWords (s : State) (space index count : Nat) : List MgmtWord :=
  (List.range count).map fun k => spaceWord s space (index + k)

/-- The checks common to READ and WRITE: space, count, index (R174, R175). -/
def spaceChecks (r : Request) : Option Status :=
  match spaceWords r.space.toNat with
  | none => some .badSpace
  | some words =>
    if r.count < 1 ∨ 16 < r.count then some .badValue
    else if words < r.index + r.count then some .badIndex
    else none

end Sys2Proof.Machine
end

