-- ==== Sys2Proof/Machine/Writes.lean ====
section
/-! DEFINITION. WRITE requests: what each owner checks and changes, space by space (R4 to R7, R20 to R22, R54, R55, R93, R128, R133
to R135, R168, R175, R179, R183, R184). Every check is made before any change. -/

namespace Sys2Proof.Machine

/-- The value a field takes: from the word, when the WRITE carries it, else the present value. -/
def carried {α : Type} (word : Option MgmtWord) (take : MgmtWord → α) (present : α) : α :=
  match word with
  | some w => take w
  | none => present

/-- A check of a word, passed when the WRITE does not carry it. -/
def wordPasses (word : Option MgmtWord) (test : MgmtWord → Bool) : Bool :=
  match word with
  | some w => test w
  | none => true

/-! ## Space 1: channel map (R4 to R7) -/

/-- The WRITE covers a configuration word of entry e (R4). -/
def writesEntry (r : Request) (e : Fin 64) : Bool :=
  (r.covered (4 * e.val)).isSome || (r.covered (4 * e.val + 1)).isSome

/-- Every configuration word of entry e that the WRITE covers carries values in range (R4, 11.4). -/
def entryInRange (r : Request) (e : Fin 64) : Bool :=
  wordPasses (r.covered (4 * e.val)) (fun w => decide (bits w 0 16 < 4096)) &&
    wordPasses (r.covered (4 * e.val + 1)) (fun w =>
      decide (bits w 0 16 ≠ 0) && (decide (bits w 16 4 < 8) || decide (bits w 16 4 = 15)))

/-- The bound slot field of word 4e + 1. -/
def boundOf (w : MgmtWord) : Option (Fin 8) :=
  if h : bits w 16 4 < 8 then some ⟨bits w 16 4, h⟩ else none

/-- The entry with the configuration the WRITE carries; live fields untouched. -/
def MapEntry.withWords (x : MapEntry) (w0 w1 : Option MgmtWord) : MapEntry :=
  { x with
    valid := carried w0 (fun w => decide (bits w 31 1 = 1)) x.valid
    sourceId := carried w0 (fun w => BitVec.ofNat 12 (bits w 0 16)) x.sourceId
    interval := carried w1 (fun w => BitVec.ofNat 16 (bits w 0 16)) x.interval
    bound := carried w1 boundOf x.bound }

/-- A write to an entry is locked while a watch that is not OFF references it, or while it binds a slot that is not IDLE (R5). -/
def State.entryLocked (s : State) (e : Fin 64) : Bool :=
  ((List.finRange 32).any fun w => decide ((s.watch w).config.channel = e) && decide ((s.watch w).state ≠ .off)) ||
    ((s.channel e).valid &&
      match (s.channel e).bound with
      | some i => decide ((s.slot i).live.state ≠ .idle)
      | none => false)

/-- The map as it would stand after the whole WRITE: each entry written takes the carried values and goes to UNSYNCED (R7). -/
def writtenMap (r : Request) (s : State) : Vector MapEntry 64 :=
  Vector.ofFn fun e =>
    if writesEntry r e then
      ((s.channel e).withWords (r.covered (4 * e.val)) (r.covered (4 * e.val + 1))).unsync
    else s.channel e

/-- Two valid entries share a source ID, or a bound slot other than none (R6). -/
def clash (x y : MapEntry) : Bool :=
  x.valid && y.valid && (x.sourceId == y.sourceId || (x.bound.isSome && x.bound == y.bound))

/-- The map holds a clash between two of its entries. -/
def duplicated (m : Vector MapEntry 64) : Bool :=
  (List.finRange 64).any fun i => (List.finRange 64).any fun j => decide (i < j) && clash m[i] m[j]

/-- What is left of the frame being handed on when a WRITE is accepted: nothing when the WRITE is to the entry that took the frame.
R15 puts that WRITE after the frame's last sample, and the samples left have no effect, since an accepted WRITE finds every watch that
references the entry OFF and the slot the entry binds IDLE (R5, R15). -/
def handingLeft (r : Request) (s : State) : Option Handing :=
  s.handing.filter fun x => !writesEntry r x.entry

/-- A WRITE to space 1 (R4 to R7, R15). -/
def writeMap (r : Request) (s : State) : State × Reply :=
  if !((List.finRange 64).all fun e => entryInRange r e) then refusedWith .badValue s
  else if (List.finRange 64).any fun e => writesEntry r e && s.entryLocked e then refusedWith .locked s
  else if duplicated (writtenMap r s) then refusedWith .duplicate s
  else acceptedWith { s with channels := writtenMap r s, handing := handingLeft r s }

/-! ## Space 2: watch table (R20 to R22) -/

/-- The WRITE covers a configuration word of watch w. -/
def writesWatch (r : Request) (w : Fin 32) : Bool :=
  [0, 1, 2, 3].any fun k => (r.covered (8 * w.val + k)).isSome

def kindOf : Nat → Option WatchKind
  | 0 => some .above
  | 1 => some .below
  | 2 => some .bandOut
  | 3 => some .rise
  | 4 => some .fall
  | 5 => some .width
  | 6 => some .period
  | _ => none

/-- The fields carried lie in their ranges (R20, 11.4): kind 0 to 6, Q not 0, MAX at most 16,777,215. -/
def watchInRange (r : Request) (w : Fin 32) : Bool :=
  wordPasses (r.covered (8 * w.val)) (fun x => (kindOf (bits x 20 3)).isSome) &&
    wordPasses (r.covered (8 * w.val + 2)) (fun x => decide (bits x 24 8 ≠ 0)) &&
    wordPasses (r.covered (8 * w.val + 3)) (fun x => decide (x.toNat ≤ 16777215))

/-- The configuration with the values the WRITE carries. -/
def WatchConfig.withWords (c : WatchConfig) (w0 w1 w2 w3 : Option MgmtWord) : WatchConfig where
  channel := carried w0 (fun w => ⟨bits w 26 6, Nat.mod_lt _ (by omega)⟩) c.channel
  kind := carried w0 (fun w => (kindOf (bits w 20 3)).getD c.kind) c.kind
  thresholdA := carried w1 (fun w => BitVec.ofNat 16 (bits w 16 16)) c.thresholdA
  thresholdB := carried w1 (fun w => BitVec.ofNat 16 (bits w 0 16)) c.thresholdB
  hysteresis := carried w0 (fun w => BitVec.ofNat 15 (bits w 0 15)) c.hysteresis
  sensitivity := carried w0 (fun w => if bits w 17 1 = 1 then .level else .edge) c.sensitivity
  qualify := carried w2 (fun w => bits w 24 8) c.qualify
  polarity := carried w0 (fun w => if bits w 16 1 = 1 then .falling else .rising) c.polarity
  windowMin := carried w2 (fun w => BitVec.ofNat 24 (bits w 0 24)) c.windowMin
  windowMax := carried w3 (fun w => BitVec.ofNat 24 (bits w 0 24)) c.windowMax
  target := carried w0 (fun w => ⟨bits w 23 3, Nat.mod_lt _ (by omega)⟩) c.target

/-- The configuration of watch w as it would stand after the WRITE. -/
def writtenWatch (r : Request) (s : State) (w : Fin 32) : WatchConfig :=
  (s.watch w).config.withWords (r.covered (8 * w.val)) (r.covered (8 * w.val + 1)) (r.covered (8 * w.val + 2))
    (r.covered (8 * w.val + 3))

/-- The constraints of the kind (R21), as exact integers. -/
def WatchConfig.constrained (c : WatchConfig) : Bool :=
  match c.kind with
  | .above => true
  | .below => true
  | .bandOut => decide (c.b + c.h ≤ c.a - c.h)
  | .rise => decide (c.qualify = 1) && decide (c.sensitivity = .edge)
  | .fall => decide (c.qualify = 1) && decide (c.sensitivity = .edge)
  | .width => decide (c.qualify = 1) && decide (c.sensitivity = .edge) && decide (c.windowMin ≤ c.windowMax)
  | .period => decide (c.qualify = 1) && decide (c.sensitivity = .edge) && decide (c.windowMin ≤ c.windowMax)

/-- The watch table after an accepted WRITE: each watch written takes the values carried, its live fields keep theirs (R22). -/
def writtenWatches (r : Request) (s : State) : Vector Watch 32 :=
  Vector.ofFn fun w => if writesWatch r w then { s.watch w with config := writtenWatch r s w } else s.watch w

/-- A WRITE to space 2 (R20 to R22). -/
def writeWatches (r : Request) (s : State) : State × Reply :=
  if !((List.finRange 32).all fun w => !writesWatch r w || (watchInRange r w && (writtenWatch r s w).constrained)) then
    refusedWith .badValue s
  else if (List.finRange 32).any fun w => writesWatch r w && decide ((s.watch w).state ≠ .off) then refusedWith .locked s
  else acceptedWith { s with watches := writtenWatches r s }

/-! ## Space 3: slot table (R54, R55, R184) -/

/-- The WRITE covers a configuration word of slot i. -/
def writesSlot (r : Request) (i : Fin 8) : Bool :=
  [0, 1, 2].any fun k => (r.covered (16 * i.val + k)).isSome

/-- The configuration with the values the WRITE carries; P and N are put together from the covered bits and the present value's
other bits (R184). -/
def SlotConfig.withWords (c : SlotConfig) (w0 w1 w2 : Option MgmtWord) : SlotConfig where
  base := carried w0 (fun w => bits w 0 15 * 512) c.base
  size := carried w0 (fun w => bits w 15 10 * 512) c.size
  pre := carried w0 (fun w => bits w 27 2) (high c.pre) * 65536 + carried w1 (fun w => bits w 0 16) (c.pre % 65536)
  post := carried w0 (fun w => bits w 29 3) (high c.post) * 65536 + carried w1 (fun w => bits w 16 16) (c.post % 65536)
  early := carried w2 (fun w => bits w 0 8) c.early
  retrigger := carried w0 (fun w => if bits w 25 1 = 1 then .extend else .ignore) c.retrigger
  full := carried w0 (fun w => if bits w 26 1 = 1 then .overwrite else .stop) c.full

def writtenSlot (r : Request) (s : State) (i : Fin 8) : SlotConfig :=
  (s.slot i).config.withWords (r.covered (16 * i.val)) (r.covered (16 * i.val + 1)) (r.covered (16 * i.val + 2))

/-- Every range and constraint of R53, and base + 2S within the SDRAM (R54). -/
def SlotConfig.valid (c : SlotConfig) : Bool :=
  decide (c.base ≤ 16776192) && decide (c.base % 512 = 0) && decide (512 ≤ c.size) && decide (c.size ≤ 262144) &&
    decide (c.size % 512 = 0) && decide (c.pre ≤ c.size - 1) && decide (1 ≤ c.post) && decide (c.post ≤ c.size) &&
    decide (c.pre + c.post ≤ c.size) && decide (c.early ≤ 255) && decide (c.early < c.post) &&
    decide (c.base + 2 * c.size ≤ Config.memoryWords)

/-- The half holds, or is on its way to holding, a capture. -/
def HalfState.holdsCapture : HalfState → Bool
  | .sealing => true
  | .full => true
  | .empty => false
  | .active => false

/-- A write to a slot is locked unless it is IDLE with no half SEALING or FULL (R55). -/
def Slot.locked (x : Slot) : Bool :=
  decide (x.live.state ≠ .idle) || x.recA.state.holdsCapture || x.recB.state.holdsCapture

/-- The slot table after an accepted WRITE: each slot written takes the values carried (R55). -/
def writtenSlots (r : Request) (s : State) : Vector Slot 8 :=
  Vector.ofFn fun i => if writesSlot r i then { s.slot i with config := writtenSlot r s i } else s.slot i

/-- A WRITE to space 3 (R54, R55). -/
def writeSlots (r : Request) (s : State) : State × Reply :=
  if !((List.finRange 8).all fun i => !writesSlot r i || (writtenSlot r s i).valid) then refusedWith .badValue s
  else if (List.finRange 8).any fun i => writesSlot r i && (s.slot i).locked then refusedWith .locked s
  else acceptedWith { s with slots := writtenSlots r s }

/-! ## Space 6: timing set (R128) -/

def writesTiming (r : Request) : Bool :=
  (r.covered 2).isSome || (r.covered 3).isSome

def timingInRange (r : Request) : Bool :=
  wordPasses (r.covered 2) (fun w => decide (256 ≤ bits w 0 16) && decide (bits w 0 16 ≤ 16383)) &&
    wordPasses (r.covered 3) (fun w =>
      decide (2 ≤ bits w 0 4) && decide (bits w 0 4 ≤ 3) && decide (1 ≤ bits w 8 4) && decide (bits w 8 4 ≤ 7) &&
        decide (1 ≤ bits w 16 4) && decide (bits w 16 4 ≤ 7) && decide (2 ≤ bits w 24 4))

def TimingSet.withWords (t : TimingSet) (w2 w3 : Option MgmtWord) : TimingSet where
  refreshInterval := carried w2 (fun w => bits w 0 16) t.refreshInterval
  readLatency := carried w3 (fun w => bits w 0 4) t.readLatency
  activateToAccess := carried w3 (fun w => bits w 8 4) t.activateToAccess
  precharge := carried w3 (fun w => bits w 16 4) t.precharge
  minRowOpen := carried w3 (fun w => bits w 24 4) t.minRowOpen

/-- A WRITE to space 6: one that covers no timing word changes nothing and is answered OK (R128). -/
def writeTiming (r : Request) (s : State) : State × Reply :=
  if !writesTiming r then acceptedWith s
  else if !timingInRange r then refusedWith .badValue s
  else if s.ctl.state ≠ .uninit ∧ s.ctl.state ≠ .hold then refusedWith .notHeld s
  else acceptedWith { s with ctl := { s.ctl with written := s.ctl.written.withWords (r.covered 2) (r.covered 3) } }

/-! ## Space 5: enable sets and order list (R133, R135) -/

/-- The list names each class once. -/
def isPermutation (order : List Nat) : Bool :=
  (List.range 8).all fun c => order.count c == 1

/-- The class numbers of an order list word, first position first. -/
def orderClasses (w : MgmtWord) : List Nat :=
  (List.range 8).map fun k => bits w (4 * k) 4

/-- The order list of a word that has passed its check. -/
def orderOf (w : MgmtWord) : Vector (Fin 8) 8 :=
  Vector.ofFn fun k => ⟨bits w (4 * k.val) 4 % 8, Nat.mod_lt _ (by omega)⟩

/-- The notice unit with the enable sets and order list the WRITE carries, bits of sources a class lacks ignored (R183). -/
def NoticeUnit.withWords (u : NoticeUnit) (r : Request) : NoticeUnit :=
  { u with
    enable := Vector.ofFn fun c => carried (r.covered (8 + c.val)) (fun w => w &&& classSources c) u.enable[c]
    order := carried (r.covered 17) orderOf u.order }

/-- A WRITE to space 5: the order list is checked as a whole, then sets and list change in one step and a notice may be built. -/
def writeNotice (r : Request) (s : State) : State × Reply :=
  if !wordPasses (r.covered 17) (fun w => isPermutation (orderClasses w)) then refusedWith .badValue s
  else acceptedWith (build { s with notices := s.notices.withWords r })

/-! ## Space 0: CONTROL (R93, R134, R168, R179) -/

/-- The four refusals of R179. -/
def controlInRange (r : Request) : Bool :=
  wordPasses (r.covered 2) (fun w => decide (bits w 0 2 < 2)) &&
    wordPasses (r.covered 6) (fun w => decide (bits w 0 24 % 16 = 0)) &&
    wordPasses (r.covered 7) (fun w => decide (bits w 0 4 < 8)) &&
    wordPasses (r.covered 9) (fun w => decide (bits w 0 4 ≤ 8))

def modeOf (w : MgmtWord) : CheckMode :=
  if bits w 0 2 = 1 then .proceed else .stop

/-- The check mode a WRITE leaves (R168). -/
def writeMode (r : Request) (s : State) : State :=
  { s with ep := { s.ep with mode := carried (r.covered 2) modeOf s.ep.mode } }

/-- The express class setting of a word: 8 is none (R134). -/
def expressOf (w : MgmtWord) : Option (Fin 8) :=
  if h : bits w 0 4 < 8 then some ⟨bits w 0 4, h⟩ else none

/-- The notice settings a WRITE leaves (R134). -/
def NoticeUnit.withSettings (u : NoticeUnit) (r : Request) : NoticeUnit :=
  { u with
    dispatchBase := carried (r.covered 7) (fun w => BitVec.ofNat 16 (bits w 16 16)) u.dispatchBase
    dispatchShift := carried (r.covered 7) (fun w => ⟨bits w 0 4 % 8, Nat.mod_lt _ (by omega)⟩) u.dispatchShift
    holdoff := carried (r.covered 8) (fun w => BitVec.ofNat 16 (bits w 0 16)) u.holdoff
    express := carried (r.covered 9) expressOf u.express }

def writeSettings (r : Request) (s : State) : State :=
  build { s with notices := s.notices.withSettings r }

/-- The count table settings change as given: turning it on, or moving its base while it stays on, marks all 16 words; turning it off
discards every mark; settings left as they were mark nothing (R93). -/
def setCountTable (on : Bool) (base : MemAddr) (s : State) : State :=
  let s1 := { s with capture := { s.capture with tableOn := on, tableBase := base } }
  if on then
    if s.capture.tableOn && base == s.capture.tableBase then s1 else markAll s1
  else if s.capture.tableOn then { s1 with ctl := { s1.ctl with dirty := Vector.replicate 16 false } }
  else s1

def writeCountSettings (r : Request) (s : State) : State :=
  match r.covered 6 with
  | some w => setCountTable (decide (bits w 31 1 = 1)) (BitVec.ofNat 24 (bits w 0 24)) s
  | none => s

/-- A WRITE to space 0, validated whole across all the fields it covers (R179). -/
def writeControl (r : Request) (s : State) : State × Reply :=
  if !controlInRange r then refusedWith .badValue s
  else acceptedWith (writeSettings r (writeCountSettings r (writeMode r s)))

/-! ## Any WRITE (R175) -/

/-- The owner's part of a WRITE, by space; every word of space 4 is read-only (R88). -/
def writeOwner (r : Request) (s : State) : State × Reply :=
  match r.space.toNat with
  | 0 => writeControl r s
  | 1 => writeMap r s
  | 2 => writeWatches r s
  | 3 => writeSlots r s
  | 5 => writeNotice r s
  | 6 => writeTiming r s
  | _ => acceptedWith s

/-- A WRITE: the checks of every space, then the owner's. -/
def runWrite (_ : Fin 4) (r : Request) (s : State) : State × Reply :=
  match spaceChecks r with
  | some status => refusedWith status s
  | none => writeOwner r s

/-! ## Commands -/

/-- A request whose op nibble names no op; READ, WRITE and FETCH each answer it BAD_OP (R182, log entry 8). -/
def Request.undefinedOp (r : Request) : Bool :=
  !r.opDefined

/-- A WRITE to a space. -/
def Request.writesSpace (space : Nat) (r : Request) : Bool :=
  r.op == opWrite && decide (r.space.toNat = space)

/-- A WRITE to a space that covers one of some words. -/
def Request.writesWords (space : Nat) (words : List Nat) (r : Request) : Bool :=
  r.writesSpace space && words.any fun n => (r.covered n).isSome

/-- WRITE: any WRITE request. -/
def execWrite (s : State) : Host.Outcome State Fault Refusal :=
  .next (execute (fun r => r.op == opWrite || r.undefinedOp) runWrite s)

/-- WRITE_CHANNEL_MAP. -/
def execWriteChannelMap (s : State) : Host.Outcome State Fault Refusal :=
  .next (execute (Request.writesSpace 1) runWrite s)

/-- WRITE_WATCH. -/
def execWriteWatch (s : State) : Host.Outcome State Fault Refusal :=
  .next (execute (Request.writesSpace 2) runWrite s)

/-- WRITE_SLOT. -/
def execWriteSlot (s : State) : Host.Outcome State Fault Refusal :=
  .next (execute (Request.writesSpace 3) runWrite s)

/-- WRITE_TIMING_SET. -/
def execWriteTimingSet (s : State) : Host.Outcome State Fault Refusal :=
  .next (execute (Request.writesWords 6 [2, 3]) runWrite s)

/-- WRITE_COUNT_TABLE. -/
def execWriteCountTable (s : State) : Host.Outcome State Fault Refusal :=
  .next (execute (Request.writesWords 0 [6]) runWrite s)

/-- WRITE_ENABLE_SET. -/
def execWriteEnableSet (s : State) : Host.Outcome State Fault Refusal :=
  .next (execute (Request.writesWords 5 [8, 9, 10, 11, 12, 13, 14, 15]) runWrite s)

/-- WRITE_ORDER_LIST. -/
def execWriteOrderList (s : State) : Host.Outcome State Fault Refusal :=
  .next (execute (Request.writesWords 5 [17]) runWrite s)

/-- WRITE_EXPRESS_CLASS. -/
def execWriteExpressClass (s : State) : Host.Outcome State Fault Refusal :=
  .next (execute (Request.writesWords 0 [9]) runWrite s)

/-- WRITE_CHECK_MODE. -/
def execWriteCheckMode (s : State) : Host.Outcome State Fault Refusal :=
  .next (execute (Request.writesWords 0 [2]) runWrite s)

end Sys2Proof.Machine
end

