-- ==== Sys2Proof/Machine/Requests.lean ====
section
/-! DEFINITION. READ, FETCH and the thirteen commands of R177. -/

namespace Sys2Proof.Machine

/-! ## READ and FETCH (R174, R176) -/

/-- A READ returns the words as they stand and changes nothing. -/
def runRead (_ : Fin 4) (r : Request) (s : State) : State × Reply :=
  match spaceChecks r with
  | some status => refusedWith status s
  | none => (s, .answer .ok (readWords s r.space.toNat r.index r.count))

/-- The checks of a FETCH (R176). -/
def fetchChecks (r : Request) (memory : MemState) : Option Status :=
  if r.count < 1 ∨ 32 < r.count then some .badValue
  else if Config.memoryWords < r.address + r.count then some .badIndex
  else if memory = .uninit then some .notReady
  else none

/-- The read a FETCH places at the controller (R112). -/
def placeRead (i : Fin 4) (r : Request) (s : State) : State :=
  { s with ctl := { s.ctl with reads := s.ctl.reads ++ [⟨BitVec.ofNat 24 r.address, r.count, i⟩] } }

def runFetch (i : Fin 4) (r : Request) (s : State) : State × Reply :=
  match fetchChecks r s.ctl.state with
  | some status => refusedWith status s
  | none => (placeRead i r s, .placed)

/-! ## Slots (R58 to R60, R70, R75, R89, R90) -/

/-- A valid entry binds the slot (R1). -/
def State.slotBound (s : State) (i : Fin 8) : Bool :=
  (List.finRange 64).any fun e => (s.channel e).valid && decide ((s.channel e).bound = some i)

/-- A range of memory words: its first address and its length. -/
abbrev Region := Nat × Nat

/-- The 2S words of a slot (R53). -/
def SlotConfig.region (c : SlotConfig) : Region :=
  (c.base, 2 * c.size)

/-- Some word lies in both ranges. -/
def overlaps (x y : Region) : Bool :=
  decide (x.1 < y.1 + y.2) && decide (y.1 < x.1 + x.2)

/-- The memory of another slot is in use: it is not IDLE, or a half of it is SEALING or FULL (R59); this is also when it is locked
against writes (R55). -/
def State.overlapFails (s : State) (i : Fin 8) : Bool :=
  ((List.finRange 8).any fun j =>
      decide (j ≠ i) && (s.slot j).locked && overlaps (s.slot i).config.region (s.slot j).config.region) ||
    (s.capture.tableOn && overlaps (s.slot i).config.region (s.capture.tableBase.toNat, 16))

/-- The checks of ARM-SLOT, in order (R58). -/
def armChecks (i : Fin 8) (s : State) : Option Status :=
  if (s.slot i).live.state ≠ .idle then some .wrongState
  else if !s.slotBound i then some .badValue
  else if s.ctl.state = .uninit then some .notReady
  else if s.overlapFails i then some .badValue
  else none

/-- The half of slot i that stands earliest in the capture index. -/
def State.olderFull (s : State) (i : Fin 8) : Option Half :=
  (s.capture.index.find? fun e => decide (e.1 = i)).map Prod.snd

/-- The slot takes a half, or goes to STALLED (R60); the memory stays in HOLD if it is there (R124, log entry 27). -/
def armTakes (i : Fin 8) (s : State) : State :=
  if (s.record i .a).state = .empty then armHalf i .a s
  else if (s.record i .b).state = .empty then armHalf i .b s
  else
    match (s.slot i).config.full, s.olderFull i with
    | .overwrite, some h => armReclaim i h s
    | .overwrite, none => toRest i .stalled s
    | .stop, _ => toRest i .stalled s

/-- ARM-SLOT (R58 to R60). -/
def armSlot (i : Fin 8) (s : State) : State × Reply :=
  match armChecks i s with
  | some status => refusedWith status s
  | none => acceptedWith (armTakes i (withdrawHold s))

/-- DISARM-SLOT (R75). -/
def disarmSlot (i : Fin 8) (s : State) : State × Reply :=
  match (s.slot i).live.state, (s.slot i).live.active with
  | .idle, _ => refusedWith .wrongState s
  | .armed, some h => acceptedWith (emptyHalf i h (toRest i .idle s))
  | .post, some h => acceptedWith (truncate i h s)
  | .armed, none => acceptedWith (toRest i .idle s)
  | .post, none => acceptedWith (toRest i .idle s)
  | .stalled, _ => acceptedWith (toRest i .idle s)

/-- The answer FORCE-TRIGGER gives for the outcome of its request (R64, R65, R68 to R70). -/
def forceStatus : RequestOutcome → Status
  | .taken => .ok
  | .retriggered => .ok
  | .refusedIdle => .wrongState
  | .refusedStalled => .wrongState
  | .none => .wrongState
  | .gated => .wrongState

/-- FORCE-TRIGGER: a request with source 32 and trigger time 0, whatever the gate (R65, R70). -/
def forceTrigger (i : Fin 8) (s : State) : State × Reply :=
  let (s1, outcome) := trigger i 32 0 s
  (s1, .answer (forceStatus outcome) [])

/-- A taken release: the entry leaves the index; a STALLED slot arms on the half at once, else the half stays EMPTY (R89, R90). -/
def releaseFull (i : Fin 8) (h : Half) (s : State) : State :=
  if (s.slot i).live.state = .stalled then takeHalf i h (removeIndex i h s) else emptyHalf i h (removeIndex i h s)

/-- RELEASE-HALF (R89). -/
def releaseHalf (i : Fin 8) (h : Half) (s : State) : State × Reply :=
  if (s.record i h).state = .full then acceptedWith (releaseFull i h s) else refusedWith .wrongState s

/-! ## Watches (R34, R35) -/

def enableWatch (w : Fin 32) (s : State) : State × Reply :=
  if (s.watch w).state ≠ .off then refusedWith .wrongState s
  else if !(s.channel (s.watch w).config.channel).valid then refusedWith .badValue s
  else acceptedWith (s.setWatch w (s.watch w).started)

def disableWatch (w : Fin 32) (s : State) : State × Reply :=
  acceptedWith (s.setWatch w (s.watch w).stopped)

/-! ## Gate, notices, fault record (R76, R142, R167) -/

def setGate (isOpen : Bool) (s : State) : State × Reply :=
  acceptedWith { s with capture := { s.capture with gateOpen := isOpen } }

def ackNotice (c : Fin 8) (mask : BitVec 32) (s : State) : State × Reply :=
  acceptedWith (build { s with notices := s.notices.acknowledge c mask })

def clearFaultRecord (s : State) : State × Reply :=
  acceptedWith { s with ep := { s.ep with fault := none } }

/-! ## Memory (R119, R121) -/

def memStart (s : State) : State × Reply :=
  if s.ctl.state = .uninit then
    acceptedWith { s with ctl := { s.ctl with state := .init, effect := s.ctl.written, op := some .initSequence } }
  else refusedWith .wrongState s

/-- Some slot is ARMED or POST (R121). -/
def State.recording (s : State) : Bool :=
  (List.finRange 8).any fun i => decide ((s.slot i).live.state = .armed) || decide ((s.slot i).live.state = .post)

def memHold (s : State) : State × Reply :=
  match s.ctl.state with
  | .ready =>
    if s.recording then refusedWith .wrongState s
    else acceptedWith (chooseMem { s with ctl := { s.ctl with holdRequest := true, state := .entering } })
  | .entering => acceptedWith s
  | .hold => acceptedWith s
  | .uninit => refusedWith .wrongState s
  | .init => refusedWith .wrongState s
  | .exiting => refusedWith .wrongState s

/-! ## RESET-CAPTURE (R178) -/

/-- Slot i after RESET-CAPTURE: IDLE, both halves EMPTY, configuration kept (R77, R98). -/
def Slot.resetCapture (x : Slot) : Slot where
  config := x.config
  live := SlotLive.cleared .idle
  recA := CaptureRecord.cleared .empty
  recB := CaptureRecord.cleared .empty

/-- The frame in the notice slot has begun to be sent. -/
def State.sendingNotice (s : State) : Bool :=
  match s.link.dSending with
  | some x => decide (x.holder = .notice)
  | none => false

/-- Channel map, watches, slots, gate, index, write queue and notice unit after RESET-CAPTURE (R2, R18, R77, R98, R103, R146). -/
def clearCapture (s : State) : State :=
  { s with
    channels := Vector.ofFn fun e => (s.channel e).unsync
    watches := Vector.ofFn fun w => (s.watch w).stopped
    slots := Vector.ofFn fun i => (s.slot i).resetCapture
    capture := { s.capture with gateOpen := true, index := [] }
    queue := []
    notices := s.notices.resetCapture s.sendingNotice }

/-- RESET-CAPTURE; with the count table on every count word is marked, which is work arriving (R98, R117). -/
def resetCapture (s : State) : State × Reply :=
  acceptedWith (build (if s.capture.tableOn then markAll (clearCapture s) else clearCapture s))

/-! ## REALIGN (R163) -/

/-- The port after REALIGN. -/
def PortState.realigned (x : PortState) : PortState :=
  { x.dropped with failures := 0, validRun := 0, invalidRun := 0 }

def realign (p : Port) (s : State) : State × Reply :=
  let s1 := s.setPort p (s.port p).realigned
  acceptedWith (if (s.port p).receiver = .up then raise classState (srcPortDown p) s1 else s1)

/-! ## Commands with their argument (R177) -/

/-- A command whose argument is out of range is answered BAD_VALUE. -/
def withArg {α : Type} (take : MgmtWord → Option α) (run : α → State → State × Reply) (_ : Fin 4) (r : Request) (s : State) :
    State × Reply :=
  match take r.argument with
  | some a => run a s
  | none => refusedWith .badValue s

/-- A command whose argument is not used takes no value from it. -/
def withoutArg (run : State → State × Reply) (_ : Fin 4) (_ : Request) (s : State) : State × Reply :=
  run s

/-- A COMMAND whose code names no command: every command answers it (R172, R182, log entry 8). -/
def Request.undefinedCode (r : Request) : Bool :=
  r.op == opCommand && !r.codeDefined

/-- The requests a command row executes. -/
def Request.asksFor (code : Nat) (r : Request) : Bool :=
  r.isCommand code || r.undefinedCode

/-- READ. -/
def execRead (s : State) : Host.Outcome State Fault Refusal :=
  .next (execute (fun r => r.op == opRead || r.undefinedOp) runRead s)

/-- FETCH. -/
def execFetch (s : State) : Host.Outcome State Fault Refusal :=
  .next (execute (fun r => r.op == opFetch || r.undefinedOp) runFetch s)

/-- ARM_SLOT. -/
def execArmSlot (s : State) : Host.Outcome State Fault Refusal :=
  .next (execute (Request.asksFor codeArmSlot) (withArg slotArg armSlot) s)

/-- DISARM_SLOT. -/
def execDisarmSlot (s : State) : Host.Outcome State Fault Refusal :=
  .next (execute (Request.asksFor codeDisarmSlot) (withArg slotArg disarmSlot) s)

/-- FORCE_TRIGGER. -/
def execForceTrigger (s : State) : Host.Outcome State Fault Refusal :=
  .next (execute (Request.asksFor codeForceTrigger) (withArg slotArg forceTrigger) s)

/-- RELEASE_HALF. -/
def execReleaseHalf (s : State) : Host.Outcome State Fault Refusal :=
  .next (execute (Request.asksFor codeReleaseHalf) (withArg releaseArg fun a => releaseHalf a.1 a.2) s)

/-- ENABLE_WATCH. -/
def execEnableWatch (s : State) : Host.Outcome State Fault Refusal :=
  .next (execute (Request.asksFor codeEnableWatch) (withArg watchArg enableWatch) s)

/-- DISABLE_WATCH. -/
def execDisableWatch (s : State) : Host.Outcome State Fault Refusal :=
  .next (execute (Request.asksFor codeDisableWatch) (withArg watchArg disableWatch) s)

/-- GATE. -/
def execGate (s : State) : Host.Outcome State Fault Refusal :=
  .next (execute (Request.asksFor codeGate) (withArg gateArg setGate) s)

/-- ACK_NOTICE. -/
def execAckNotice (s : State) : Host.Outcome State Fault Refusal :=
  .next (execute (Request.asksFor codeAckNotice) (withArg ackArg fun a => ackNotice a.1 a.2) s)

/-- CLEAR_FAULT. -/
def execClearFault (s : State) : Host.Outcome State Fault Refusal :=
  .next (execute (Request.asksFor codeClearFault) (withoutArg clearFaultRecord) s)

/-- MEM_START. -/
def execMemStart (s : State) : Host.Outcome State Fault Refusal :=
  .next (execute (Request.asksFor codeMemStart) (withoutArg memStart) s)

/-- MEM_HOLD. -/
def execMemHold (s : State) : Host.Outcome State Fault Refusal :=
  .next (execute (Request.asksFor codeMemHold) (withoutArg memHold) s)

/-- RESET_CAPTURE. -/
def execResetCapture (s : State) : Host.Outcome State Fault Refusal :=
  .next (execute (Request.asksFor codeResetCapture) (withoutArg resetCapture) s)

/-- REALIGN. -/
def execRealign (s : State) : Host.Outcome State Fault Refusal :=
  .next (execute (Request.asksFor codeRealign) (withArg portArg realign) s)

end Sys2Proof.Machine
end

