-- ==== Sys2Proof/Machine/MemoryEvents.lean ====
section
/-! DEFINITION. The ends of operations on the memory port and the refresh timer's expiry (spec/06, spec/07). Each command acts when
its operation is the one in progress; otherwise it names no event of this state and nothing happens (log entry 1). -/

namespace Sys2Proof.Machine

/-! ## Bursts (R102) -/

/-- The burst's words are in memory, and each page it touched has its row open. -/
def burstWritten (entries : List QueueEntry) (s : State) : State :=
  { s with
    mem := s.mem.writeBurst entries
    ctl := { s.ctl with banks := openRows s.ctl.banks (entries.map QueueEntry.address) } }

/-- At a burst's end its half, when SEALING with no entry left in the queue, becomes FULL (R83, R102). -/
def sealAtEnd (i : Fin 8) (h : Half) (s : State) : State :=
  if (s.record i h).state = .sealing ∧ s.queue.any (·.belongs i h) = false then halfFull i h s else s

/-- The end of a burst: words written, half FULL or not, count word marked, port free. -/
def endBurst (entries : List QueueEntry) (s : State) : State :=
  let s1 := burstWritten entries s
  freePort
    (match entries with
      | [] => s1
      | e :: _ => markDirty (countWordOf e.slot e.half) (sealAtEnd e.slot e.half s1))

/-- BURST_END. -/
def execBurstEnd (s : State) : Host.Outcome State Fault Refusal :=
  .next
    (match s.ctl.op with
      | some (.burst entries) => endBurst entries s
      | _ => s)

/-! ## Refresh (R110, R111) -/

/-- REFRESH_DUE: the timer runs out, a refresh falls due and the timer is loaded again; the arrival may be a decision point. -/
def execRefreshDue (s : State) : Host.Outcome State Fault Refusal :=
  .next
    (if s.ctl.timer.running then
      chooseMem { s with ctl := { s.ctl with refreshDue := true, timer := s.ctl.loadedTimer } }
    else s)

/-- An operation that leaves every bank CLOSED has ended and the port is free. -/
def endClosed (s : State) : State :=
  { s with ctl := { s.ctl with op := none, banks := closedBanks } }

/-- REFRESH_END. -/
def execRefreshEnd (s : State) : Host.Outcome State Fault Refusal :=
  .next (if s.ctl.op = some .refresh then chooseMem (endClosed s) else s)

/-! ## FETCH reads (R113, R114) -/

/-- The context of a read goes to ANSWERING with the packed words (R171). -/
def answerRead (i : Fin 4) (words : List MgmtWord) (s : State) : State :=
  match s.context i with
  | .reading t => dChoose (s.setContext i (.answering t ⟨t.request.tag, .ok, words⟩))
  | .free => s
  | .waiting _ => s
  | .answering _ _ => s

/-- The addresses a read takes its words from. -/
def FetchRead.addresses (r : FetchRead) : List MemAddr :=
  (List.range r.count).map fun k => r.address + BitVec.ofNat 24 k

/-- A read leaves the controller with its rows open; the free count moves past the words it may have made up. -/
def readDone (r : FetchRead) (rest : List FetchRead) (s : State) : State :=
  { s with
    ctl := { s.ctl with reads := rest, banks := openRows s.ctl.banks r.addresses }
    free := s.free + r.count }

/-- The end of a FETCH read: response first, then the arbiter's choice (R114). -/
def endRead (r : FetchRead) (rest : List FetchRead) (s : State) : State :=
  freePort (answerRead r.context (packWords (s.mem.fetchWords s.free r.address r.count)) (readDone r rest s))

/-- FETCH_READ_END. -/
def execFetchReadEnd (s : State) : Host.Outcome State Fault Refusal :=
  .next
    (match s.ctl.op, s.ctl.reads with
      | some .fetchRead, r :: rest => endRead r rest s
      | _, _ => s)

/-! ## Count-table writes (R115) -/

/-- The word of a count-table write is in memory and its row open. -/
def countWritten (a : MemAddr) (v : MemWord) (s : State) : State :=
  { s with mem := s.mem.write a v, ctl := { s.ctl with banks := openRow s.ctl.banks a } }

/-- COUNT_TABLE_WRITE_END. -/
def execCountTableWriteEnd (s : State) : Host.Outcome State Fault Refusal :=
  .next
    (match s.ctl.op with
      | some (.countWrite _ a v) => freePort (countWritten a v s)
      | _ => s)

/-! ## Initialisation, closing, exit (R120, R123, R127) -/

/-- The memory enters READY, or ENTERING after an exit with the hold request set: banks CLOSED, refresh timer loaded, port free. -/
def enterReady (state : MemState) (s : State) : State :=
  { s with ctl := { s.ctl with state := state, op := none, banks := closedBanks, timer := s.ctl.loadedTimer } }

/-- INIT_SEQUENCE_END: STATE source 7 is raised and the entry to READY is a decision point. -/
def execInitSequenceEnd (s : State) : Host.Outcome State Fault Refusal :=
  .next
    (if s.ctl.op = some .initSequence then
      chooseMem (raise classState srcMemoryReady (enterReady .ready s))
    else s)

/-- The memory enters HOLD: the refresh timer is stopped (R123). -/
def enterHold (s : State) : State :=
  { s with ctl := { s.ctl with state := .hold, timer := { s.ctl.timer with running := false } } }

/-- CLOSING_OPERATION_END: HOLD when the hold request is set and nothing waits, else a decision point. -/
def execClosingOperationEnd (s : State) : Host.Outcome State Fault Refusal :=
  .next
    (if s.ctl.op = some .closing then
      if s.ctl.holdRequest ∧ s.workWaits = false then enterHold (endClosed s) else chooseMem (endClosed s)
    else s)

/-- EXIT_SEQUENCE_END: READY, or on to ENTERING when the hold request is set; either is a decision point. -/
def execExitSequenceEnd (s : State) : Host.Outcome State Fault Refusal :=
  .next
    (match s.ctl.op with
      | some (.exitSequence _) => chooseMem (enterReady (if s.ctl.holdRequest then .entering else .ready) s)
      | _ => s)

end Sys2Proof.Machine
end

