-- ==== Sys2Proof/Machine/Transmit.lean ====
section
/-! DEFINITION. Ends of transmissions, the microsecond step with the timers that count on it, and power-on reset. -/

namespace Sys2Proof.Machine

/-! ## Frames sent (R140, R153, R159, R161, R162) -/

/-- The holder of a frame whose END has been sent at D-out is freed; a notice leaving starts the holdoff timer (R140, R169, R170). -/
def freeHolder (holder : DHolder) (s : State) : State :=
  match holder with
  | .forward => { s with link := { s.link with u2d := s.link.u2d.tail } }
  | .notice => { s with notices := { s.notices with noticeSlot := none, timer := startedTimer s.notices.holdoff } }
  | .busy => { s with ep := { s.ep with refusal := none } }
  | .context i => s.setContext i .free

/-- Nothing is being sent at D-out. -/
def clearDOut (s : State) : State :=
  { s with link := { s.link with dSending := none } }

/-- D_FRAME_SENT: the holder is freed, a notice is built if R136 now allows, and the arbiter chooses (log entry 10). -/
def execDFrameSent (s : State) : Host.Outcome State Fault Refusal :=
  .next
    (match s.link.dSending with
      | some x => dChoose (build (clearDOut (freeHolder x.holder s)))
      | none => s)

/-- The frame sent at U-out leaves the D-to-U queue. -/
def clearUOut (s : State) : State :=
  { s with link := { s.link with d2u := s.link.d2u.tail, uSending := none } }

/-- U_FRAME_SENT. -/
def execUFrameSent (s : State) : Host.Outcome State Fault Refusal :=
  .next
    (match s.link.uSending with
      | some _ => uChoose (clearUOut s)
      | none => s)

/-! ## The microsecond step (R141, R150, R179) -/

/-- A port's pause after one step of the counter: at its end a new sweep begins at tap 0 with no symbol observed (R150). -/
def PortState.pauseStep (x : PortState) : PortState :=
  match x.receiver, x.sweep with
  | .seek, .pausing r => if r ≤ 1 then x.newSweep else { x with sweep := .pausing (r - 1) }
  | _, _ => x

/-- One step of the microsecond counter: pauses and the holdoff timer count, and a timer that expires may let a notice be built. -/
def tick (s : State) : State :=
  build { s with
    micros := s.micros + 1
    uPort := s.uPort.pauseStep
    dPort := s.dPort.pauseStep
    notices := { s.notices with timer := s.notices.timer.step } }

/-- So many microseconds pass. -/
def ticks : Nat → State → State
  | 0, s => s
  | n + 1, s => ticks n (tick s)

/-- The microseconds left of a port's pause, if it is pausing. -/
def PortState.pauseLeft (x : PortState) : Option Nat :=
  match x.receiver, x.sweep with
  | .seek, .pausing r => some (max r 1)
  | _, _ => none

/-- PAUSE_END: what is left of the pause passes on the microsecond counter (R150, log entry 3). -/
def execPauseEnd (p : Port) (s : State) : Host.Outcome State Fault Refusal :=
  .next
    (match (s.port p).pauseLeft with
      | some n => ticks n s
      | none => s)

/-- HOLDOFF_EXPIRY: what is left of the holdoff time passes on the microsecond counter (R141, log entry 3). -/
def execHoldoffExpiry (s : State) : Host.Outcome State Fault Refusal :=
  .next (if s.notices.timer.running then ticks (max s.notices.timer.remaining 1) s else s)

/-! ## Power-on reset -/

/-- POWER_ON_RESET: every block in its initial state, the straps sampled, the SDRAM's contents undefined. The model's own fields, the
queue and the count of undefined words, go on (log entry 22). -/
def execPowerOnReset (straps : BitVec 6) (s : State) : Host.Outcome State Fault Refusal :=
  .next (State.powerOn straps s.free s.pending)

end Sys2Proof.Machine
end

