-- ==== Sys2Proof/Machine/Dispatch.lean ====
section
/-! DEFINITION. The meaning of each command, one arm for each row of spec/opcode_table.json. -/

namespace Sys2Proof.Machine

def exec (i : Instr) (s : State) : Host.Outcome State Fault Refusal :=
  match i with
  | .powerOnReset straps => Sys2Proof.Machine.execPowerOnReset straps s
  | .tapValue port symbols => Sys2Proof.Machine.execTapValue port symbols s
  | .pauseEnd port => Sys2Proof.Machine.execPauseEnd port s
  | .lockedSymbol port symbol => Sys2Proof.Machine.execLockedSymbol port symbol s
  | .receiverUp port symbol => Sys2Proof.Machine.execReceiverUp port symbol s
  | .tapProvedFalse port => Sys2Proof.Machine.execTapProvedFalse port s
  | .symbolReceived port symbol => Sys2Proof.Machine.execSymbolReceived port symbol s
  | .oversizeFrame port octet => Sys2Proof.Machine.execOversizeFrame port octet s
  | .lossOfAlignment port symbol => Sys2Proof.Machine.execLossOfAlignment port symbol s
  | .frameCompletedU => Sys2Proof.Machine.execFrameCompletedU s
  | .frameCompletedD => Sys2Proof.Machine.execFrameCompletedD s
  | .read => Sys2Proof.Machine.execRead s
  | .fetch => Sys2Proof.Machine.execFetch s
  | .write => Sys2Proof.Machine.execWrite s
  | .writeChannelMap => Sys2Proof.Machine.execWriteChannelMap s
  | .writeWatch => Sys2Proof.Machine.execWriteWatch s
  | .writeSlot => Sys2Proof.Machine.execWriteSlot s
  | .writeTimingSet => Sys2Proof.Machine.execWriteTimingSet s
  | .writeCountTable => Sys2Proof.Machine.execWriteCountTable s
  | .writeEnableSet => Sys2Proof.Machine.execWriteEnableSet s
  | .writeOrderList => Sys2Proof.Machine.execWriteOrderList s
  | .writeExpressClass => Sys2Proof.Machine.execWriteExpressClass s
  | .writeCheckMode => Sys2Proof.Machine.execWriteCheckMode s
  | .armSlot => Sys2Proof.Machine.execArmSlot s
  | .disarmSlot => Sys2Proof.Machine.execDisarmSlot s
  | .forceTrigger => Sys2Proof.Machine.execForceTrigger s
  | .releaseHalf => Sys2Proof.Machine.execReleaseHalf s
  | .enableWatch => Sys2Proof.Machine.execEnableWatch s
  | .disableWatch => Sys2Proof.Machine.execDisableWatch s
  | .gate => Sys2Proof.Machine.execGate s
  | .ackNotice => Sys2Proof.Machine.execAckNotice s
  | .clearFault => Sys2Proof.Machine.execClearFault s
  | .memStart => Sys2Proof.Machine.execMemStart s
  | .memHold => Sys2Proof.Machine.execMemHold s
  | .resetCapture => Sys2Proof.Machine.execResetCapture s
  | .realign => Sys2Proof.Machine.execRealign s
  | .burstEnd => Sys2Proof.Machine.execBurstEnd s
  | .refreshDue => Sys2Proof.Machine.execRefreshDue s
  | .refreshEnd => Sys2Proof.Machine.execRefreshEnd s
  | .fetchReadEnd => Sys2Proof.Machine.execFetchReadEnd s
  | .countTableWriteEnd => Sys2Proof.Machine.execCountTableWriteEnd s
  | .initSequenceEnd => Sys2Proof.Machine.execInitSequenceEnd s
  | .closingOperationEnd => Sys2Proof.Machine.execClosingOperationEnd s
  | .exitSequenceEnd => Sys2Proof.Machine.execExitSequenceEnd s
  | .holdoffExpiry => Sys2Proof.Machine.execHoldoffExpiry s
  | .dFrameSent => Sys2Proof.Machine.execDFrameSent s
  | .uFrameSent => Sys2Proof.Machine.execUFrameSent s

end Sys2Proof.Machine
end

