-- ==== Sys2Proof/Machine/Step.lean ====
section
/-! DEFINITION. One step of the block: the command at the front of the queue, or, with none waiting, one microsecond of the
reference clock. -/

namespace Sys2Proof.Machine

/-- The state a command runs in: itself taken off the queue. -/
def State.withQueue (s : State) (rest : List Instr) : State :=
  { s with pending := rest }

/-- One step. On an empty queue the microsecond counter steps, with the pauses and the holdoff timer that count on it (R141, R150,
R179; log entry 2). -/
def step (s : State) : Host.Outcome State Fault Refusal :=
  match s.pending with
  | [] => .next (tick s)
  | c :: rest => exec c (s.withQueue rest)

/-- The state with the command a word spells at the front of its queue; no word spells one (log entry 20). -/
def State.withFetchWord (s : State) (nbits w : Nat) : State :=
  match decodeTableWord nbits w with
  | some c => s.withQueue (c :: s.pending)
  | none => s

end Sys2Proof.Machine
end

