-- ==== Sys2Proof/Safety.lean ====
section
/-! DEFINITION. What stays true of the part: the predicates the claims are stated in. Each holds of the state after reset and is
kept by every step; none is assumed by the machine itself. -/

namespace Sys2Proof.Machine

/-! ## SDRAM and queues -/

/-- The SDRAM list is canonical (log entry 14). -/
def State.memoryCanonical (s : State) : Prop :=
  s.mem.wf = true

/-- No queue holds more than its rule allows (R99, R159). -/
def State.withinCapacity (s : State) : Prop :=
  s.queue.length ≤ 128 ∧ s.link.u2d.length ≤ 8 ∧ s.link.d2u.length ≤ 8

/-! ## Slots, halves and the index (R56, R81, R83, R86) -/

/-- The slot is ARMED or POST. -/
def Slot.recording (x : Slot) : Prop :=
  x.live.state = .armed ∨ x.live.state = .post

/-- A recording slot has an active half, any other has none and its live fields cleared; the active half is the one half that is
ACTIVE, and an EMPTY half's record is cleared (R56, R57, R81). -/
def Slot.activeAgrees (x : Slot) : Prop :=
  (x.recording ↔ x.live.active.isSome = true) ∧ (¬ x.recording → x.live = SlotLive.cleared x.live.state) ∧
    ∀ h : Half, ((x.record h).state = .active ↔ x.live.active = some h) ∧
      ((x.record h).state = .empty → x.record h = CaptureRecord.cleared .empty)

/-- The capture index holds the FULL halves, each once, and no others (R86). -/
def State.indexAgrees (s : State) : Prop :=
  s.capture.index.Nodup ∧ ∀ i h, (i, h) ∈ s.capture.index ↔ (s.record i h).state = .full

/-- Slots, halves and the index agree. -/
def State.captureAgrees (s : State) : Prop :=
  (∀ i, (s.slot i).activeAgrees) ∧ s.indexAgrees

/-- A recorded half's counts fit its slot: pre and post counts within S, the pre count within P, and filled at least their sum
(R81). -/
def CaptureRecord.fits (r : CaptureRecord) (c : SlotConfig) : Prop :=
  r.preCount + r.postCount ≤ c.size ∧ r.preCount ≤ c.pre ∧ r.preCount + r.postCount ≤ r.filled ∧ r.filled ≤ c.size

/-- A slot's configuration meets R53 and R54, every half that is SEALING or FULL fits it, and a running capture stays short of its
target, which the half has room for (R66, R69, R81). -/
def Slot.countsAgree (x : Slot) : Prop :=
  x.config.valid = true ∧ x.live.writePos < x.config.size ∧
    (∀ h : Half, (x.record h).filled ≤ x.config.size) ∧
    (∀ h : Half, (x.record h).state.holdsCapture = true → (x.record h).fits x.config) ∧
    (x.live.state = .post → ∀ h, x.live.active = some h →
      (x.record h).fits x.config ∧ (x.record h).postCount < x.live.postTarget ∧
        (x.record h).preCount + x.live.postTarget ≤ x.config.size)

/-- Every slot's halves and counts agree. -/
def State.slotsAgree (s : State) : Prop :=
  ∀ i, (s.slot i).activeAgrees ∧ (s.slot i).countsAgree

/-! ## The memory controller (R101, R107, R117, R118, R121 to R127) -/

/-- The entries of a burst: 1 to 16, of one half, at consecutive positions (R101). -/
def burstShape (entries : List QueueEntry) : Prop :=
  1 ≤ entries.length ∧ entries.length ≤ 16 ∧
    List.IsChain (fun a b : QueueEntry => b.slot = a.slot ∧ b.half = a.half ∧ b.position = a.position + 1) entries

/-- What each memory state has on the port (R117): a sequence of its own in INIT and EXITING, nothing in UNINIT and HOLD, work or the
closing operation in ENTERING, and in READY anything but those sequences. -/
def MemCtl.portAgrees (c : MemCtl) : Prop :=
  match c.state with
  | .uninit => c.op = none
  | .init => c.op = some .initSequence
  | .ready => c.op ≠ some .initSequence ∧ ∀ m, c.op ≠ some (.exitSequence m)
  | .entering => c.op ≠ none ∧ c.op ≠ some .initSequence ∧ ∀ m, c.op ≠ some (.exitSequence m)
  | .hold => c.op = none
  | .exiting => ∃ m, c.op = some (.exitSequence m)

/-- The hold request: set in ENTERING, clear in UNINIT, INIT and READY (R118, R121, R125). -/
def MemCtl.requestAgrees (c : MemCtl) : Prop :=
  match c.state with
  | .uninit => c.holdRequest = false
  | .init => c.holdRequest = false
  | .ready => c.holdRequest = false
  | .entering => c.holdRequest = true
  | .hold => True
  | .exiting => True

/-- The refresh timer runs while the memory is READY or ENTERING, and in no other state; in HOLD every bank is CLOSED, and outside
UNINIT and HOLD the written timing set is the one in effect (R110, R123, R129). -/
def MemCtl.stateAgrees (c : MemCtl) : Prop :=
  (c.timer.running = true ↔ c.state.serving = true) ∧ (c.state = .hold → c.banks = closedBanks) ∧
    (c.state ≠ .uninit → c.state ≠ .hold → c.written = c.effect)

/-- The memory controller's parts agree, and a burst in progress has the shape of R101. -/
def State.memoryAgrees (s : State) : Prop :=
  s.ctl.portAgrees ∧ s.ctl.requestAgrees ∧ s.ctl.stateAgrees ∧ ∀ entries, s.ctl.op = some (.burst entries) → burstShape entries

/-- Work never waits at a free port: not in READY, where the arbiter would have begun it, and not in HOLD, where its arrival starts
the exit (R107, R124); only the marks of an ARM-SLOT, which has withdrawn the hold request, wait in HOLD (log entry 27). -/
def State.portBusy (s : State) : Prop :=
  (s.ctl.state = .ready → s.ctl.op = none → s.workWaits = false) ∧
    (s.ctl.state = .hold → s.ctl.refreshDue = false ∧ s.queue = [] ∧ s.ctl.reads = []) ∧
    (s.ctl.state = .hold → s.ctl.holdRequest = true → s.workWaits = false)

/-- A SEALING half has an entry of its own in the queue or in the burst in progress, or it would be FULL (R83). -/
def State.sealingWaits (s : State) : Prop :=
  ∀ i h, (s.record i h).state = .sealing → s.halfWaits i h = true

/-! ## Watches and the channel map (R5, R6, R21, R24, R34, R41) -/

/-- A watch's configuration meets R20 and R21, and its live fields read as their rules say outside the states they belong to. -/
def Watch.agrees (x : Watch) : Prop :=
  x.config.constrained = true ∧ 1 ≤ x.config.qualify ∧ x.config.qualify ≤ 255 ∧
    (x.state = .qualifying → 1 ≤ x.progress ∧ x.progress < x.config.qualify) ∧
    (x.state ≠ .qualifying → x.progress = 0) ∧
    (x.state ≠ .measuring → x.startTime = 0 ∧ x.phase = .away)

/-- Every watch agrees with itself. -/
def State.watchesAgree (s : State) : Prop :=
  ∀ w, (s.watch w).agrees

/-- Two valid entries differ in source ID and in bound slot (R6). -/
def State.mapUnique (s : State) : Prop :=
  ∀ e f, e ≠ f → (s.channel e).valid = true → (s.channel f).valid = true →
    (s.channel e).sourceId ≠ (s.channel f).sourceId ∧
      ((s.channel e).bound ≠ none → (s.channel e).bound ≠ (s.channel f).bound)

/-- A frame being handed on has a sample left and a turn to take, and the entry that took it is still valid, with the same bound slot
(R9, R14, R15). -/
def State.handingAgrees (s : State) : Prop :=
  ∀ x, s.handing = some x →
    x.rest ≠ [] ∧ x.rest.length ≤ 32 ∧ x.turn ≤ 32 ∧ (s.channel x.entry).valid = true ∧ (s.channel x.entry).bound = x.bound

/-- Keys and bindings are unique, every watch not OFF references a valid entry, every slot not IDLE is bound, and a frame being handed
on is its entry's (R5, R6, R15, R34, R58). -/
def State.mapAgrees (s : State) : Prop :=
  s.mapUnique ∧ s.handingAgrees ∧ (∀ w, (s.watch w).state ≠ .off → (s.channel (s.watch w).config.channel).valid = true) ∧
    ∀ i, (s.slot i).live.state ≠ .idle → ∃ e, (s.channel e).valid = true ∧ (s.channel e).bound = some i

/-! ## Notices (R130, R133, R136, R137, R139, R141) -/

/-- A built notice names its lowest source and only sources its class has, and comes from an addressed part (R137, R139). -/
def Notice.agrees (n : Notice) (node : BitVec 6) : Prop :=
  n.responder = node ∧ node ≠ Config.broadcastAddress ∧ n.sources.getLsbD n.lowest.val = true ∧
    n.sources &&& ~~~classSources n.cls = 0

/-- Pending and enable sets hold only sources their class has, the order list is a permutation, the timer runs while time remains,
and the notice slot's frame agrees. -/
def State.noticesAgree (s : State) : Prop :=
  (∀ c : Fin 8, s.notices.pending[c] &&& ~~~classSources c = 0 ∧ s.notices.enable[c] &&& ~~~classSources c = 0) ∧
    (∀ c : Fin 8, c ∈ s.notices.order.toList) ∧
    (s.notices.timer.running = true ↔ s.notices.timer.remaining ≠ 0) ∧
    ∀ n, s.notices.noticeSlot = some n → n.agrees s.ep.nodeAddress

/-- No notice that R136 would build is left unbuilt. -/
def State.noticeBuilt (s : State) : Prop :=
  s.notices.buildChoice s.ep.nodeAddress = none

/-! ## Transmitters and the endpoint (R112, R153, R160 to R162, R169, R171, R173) -/

/-- A transmitter whose receiver is UP sends something whenever something waits for it (R160, R162). -/
def State.transmitBusy (s : State) : Prop :=
  (s.dPort.receiver = .up → s.link.dSending = none → s.dCandidate = none) ∧
    (s.uPort.receiver = .up → s.link.uSending = none → s.link.d2u = [])

/-- The frame being sent is still where it was chosen from (R140, R153, R159, R169, R170). -/
def State.holderKeeps (s : State) (x : DSending) : Prop :=
  match x.holder with
  | .forward => s.link.u2d.head? = some x.frame
  | .notice => ∃ n, s.notices.noticeSlot = some n ∧ x.frame = n.frame
  | .busy => ∃ r, s.ep.refusal = some r ∧ x.frame = r.response.frame s.ep.nodeAddress
  | .context i => ∃ t r, s.context i = .answering t r ∧ x.frame = r.frame s.ep.nodeAddress

/-- Frames being sent are still held. -/
def State.sendingAgrees (s : State) : Prop :=
  (∀ x, s.link.dSending = some x → s.holderKeeps x) ∧ ∀ f, s.link.uSending = some f → s.link.d2u.head? = some f

/-- Contexts that are not FREE were taken in different orders, all before now (R169). -/
def State.ordersAgree (s : State) : Prop :=
  (∀ i n, (s.context i).order = some n → n < s.ep.accepted) ∧
    ∀ i j n, (s.context i).order = some n → (s.context j).order = some n → i = j

/-- The controller holds one read exactly while a context is READING, and it is that context's (R112, R171). -/
def State.readsAgree (s : State) : Prop :=
  s.ctl.reads.length ≤ 1 ∧ ∀ i, (s.context i).isReading = true ↔ ∃ r, r ∈ s.ctl.reads ∧ r.context = i

/-- The endpoint, the controller's reads and the transmitters agree. -/
def State.endpointAgrees (s : State) : Prop :=
  s.sendingAgrees ∧ s.ordersAgree ∧ s.readsAgree

/-! ## Everything together -/

/-- Every predicate above. -/
def State.sound (s : State) : Prop :=
  s.memoryCanonical ∧ s.withinCapacity ∧ s.slotsAgree ∧ s.indexAgrees ∧ s.memoryAgrees ∧ s.portBusy ∧ s.sealingWaits ∧
    s.watchesAgree ∧ s.mapAgrees ∧ s.noticesAgree ∧ s.noticeBuilt ∧ s.transmitBusy ∧ s.endpointAgrees

/-! ## What an execution leaves -/

/-- The part is `t` after the owner left `u` and context i was answered: the context holds the response, or is FREE for a broadcast;
the D transmit arbiter may have begun a frame where none was being sent; nothing else differs (R160, R165, R171, R173). -/
def Responded (u t : State) (i : Fin 4) (taken : Taken) (status : Status) (words : List MgmtWord) : Prop :=
  t.ep = { u.ep with contexts := u.ep.contexts.set i (answered taken status words) } ∧
    { t.link with dSending := u.link.dSending } = u.link ∧
    (u.link.dSending ≠ none → t.link.dSending = u.link.dSending) ∧
    { t with ep := u.ep, link := u.link } = u

/-- The request of context i is the one that executes now, and R172's first checks find nothing against it. -/
def State.executesNow (s : State) (i : Fin 4) (taken : Taken) : Prop :=
  s.nextExecution = some (i, taken) ∧ s.ep.refuses taken = none

/-- A COMMAND with this code executes now (R177). -/
def State.runsCommand (s : State) (code : Nat) (i : Fin 4) (taken : Taken) : Prop :=
  s.executesNow i taken ∧ taken.request.isCommand code = true

/-- A WRITE to this space executes now, and R175's checks of space, count and index find nothing against it. -/
def State.runsWrite (s : State) (space : Nat) (i : Fin 4) (taken : Taken) : Prop :=
  s.executesNow i taken ∧ taken.request.writesSpace space = true ∧ spaceChecks taken.request = none

/-- The command answers the request with this status and leaves the part otherwise as `u`. -/
def answersWith (c : Instr) (s u : State) (i : Fin 4) (taken : Taken) (status : Status) (words : List MgmtWord) : Prop :=
  ∃ t, exec c s = .next t ∧ Responded u t i taken status words

/-- The word holds each field's value in its bits, the field given by lowest bit, width and value, and 0 in every other bit (11.4, R183). -/
def Shows (word : MgmtWord) (fields : List (Nat × Nat × Nat)) : Prop :=
  ∀ k, k < 32 →
    word.getLsbD k = fields.any fun f => decide (f.1 ≤ k) && decide (k < f.1 + f.2.1) && f.2.2.testBit (k - f.1)

/-- `t` differs from `s` in notices and in the frame being sent at D-out alone, and every source of `s` is still pending beside the
one named: what raising a source can change (R132, R136, R160). -/
def RaisedOnly (c : Fin 8) (n : Fin 32) (s t : State) : Prop :=
  t.notices.pending = s.notices.pending.set c (s.notices.pending[c] ||| (1#32 <<< n.val)) ∧ t.notices.enable = s.notices.enable ∧
    { t.link with dSending := s.link.dSending } = s.link ∧ (s.link.dSending ≠ none → t.link = s.link) ∧
    { t with notices := s.notices, link := s.link } = s

/-- The six classes of the capture side have nothing pending in `t`, and the other two what they had in `s`. -/
def CaptureClassesCleared (s t : State) : Prop :=
  (∀ c : Fin 8, c.val < 6 → t.notices.pending[c] = 0 ∧ t.notices.announcedFlag c = false) ∧
    ∀ c : Fin 8, 6 ≤ c.val → t.notices.pending[c] = s.notices.pending[c]

end Sys2Proof.Machine
end

