-- ==== Sys2Proof/WellFormed.lean ====
section
/-! DEFINITION. Which operands a command can carry. A command outside this check names no event of the part. -/

namespace Sys2Proof

/-- A symbol that adds one to a LOCKED receiver's valid run: IDLE, data, or TRAIN with the lock flag set (R151). -/
def Symbol.countsValid : Symbol → Bool
  | .data _ => true
  | .idle => true
  | .train _ lock => lock
  | .startFrame => false
  | .endFrame => false
  | .invalid => false

/-- A symbol that counts toward an UP receiver's loss: TRAIN with either flag, or invalid (R152). -/
def Symbol.countsLoss : Symbol → Bool
  | .train _ _ => true
  | .invalid => true
  | .data _ => false
  | .idle => false
  | .startFrame => false
  | .endFrame => false

/-- The operand checks: TAP_VALUE carries 1 to 16 symbols (R149), RECEIVER_UP a symbol that can raise the valid run (R151),
LOSS_OF_ALIGNMENT one that can raise the invalid run (R152). Every other operand is in range by its type. -/
def Instr.wellFormed : Instr → Bool
  | .tapValue _ symbols => decide (1 ≤ symbols.length) && decide (symbols.length ≤ Config.tapSymbols)
  | .receiverUp _ symbol => symbol.countsValid
  | .lossOfAlignment _ symbol => symbol.countsLoss
  | .powerOnReset _ => true
  | .pauseEnd _ => true
  | .lockedSymbol _ _ => true
  | .tapProvedFalse _ => true
  | .symbolReceived _ _ => true
  | .oversizeFrame _ _ => true
  | .frameCompletedU => true
  | .frameCompletedD => true
  | .read => true
  | .fetch => true
  | .write => true
  | .writeChannelMap => true
  | .writeWatch => true
  | .writeSlot => true
  | .writeTimingSet => true
  | .writeCountTable => true
  | .writeEnableSet => true
  | .writeOrderList => true
  | .writeExpressClass => true
  | .writeCheckMode => true
  | .armSlot => true
  | .disarmSlot => true
  | .forceTrigger => true
  | .releaseHalf => true
  | .enableWatch => true
  | .disableWatch => true
  | .gate => true
  | .ackNotice => true
  | .clearFault => true
  | .memStart => true
  | .memHold => true
  | .resetCapture => true
  | .realign => true
  | .burstEnd => true
  | .refreshDue => true
  | .refreshEnd => true
  | .fetchReadEnd => true
  | .countTableWriteEnd => true
  | .initSequenceEnd => true
  | .closingOperationEnd => true
  | .exitSequenceEnd => true
  | .holdoffExpiry => true
  | .dFrameSent => true
  | .uFrameSent => true

end Sys2Proof
end

