-- ==== Sys2Proof/Certificates/Slice0/Obligations.lean ====
section
/-! DEFINITION. The statements for the provers, in the order of the machine: the step and the resets, what every step keeps, the link,
watches and slots, the endpoint and its requests, the commands, the ends of operations. OBLIGATIONS.json says each in words. -/

section Slice0

open Sys2Proof Sys2Proof.Machine

/-! ## The step -/

/-- The command at the front of the queue is what a step runs, on the state with the queue's rest. -/
def Obligations.StepRunsTheFrontCommand : Prop :=
  ∀ (s : State) (c : Instr) (rest : List Instr), s.pending = c :: rest → step s = exec c { s with pending := rest }

/-- On an empty queue one microsecond passes (the model's choice, log entry 2): tables, memory and endpoint stay as they are. -/
def Obligations.EmptyQueueLetsOneMicrosecondPass : Prop :=
  ∀ s : State, s.pending = [] → ∃ t, step s = .next t ∧ t.micros = s.micros + 1 ∧ t.notices.timer = s.notices.timer.step ∧
    t.notices.pending = s.notices.pending ∧
    { t with micros := s.micros, notices := s.notices, uPort := s.uPort, dPort := s.dPort, link := s.link } = s ∧
    ∀ p, (s.port p).pauseLeft = none → t.port p = s.port p

/-- No command stops the part: every one, in every state, gives a next state with the rest of the queue untouched. That a command whose
event cannot arise gives one is the model's choice, log entry 1; that POWER_ON_RESET leaves the queue is log entry 22. -/
def Obligations.EveryCommandGivesANextState : Prop :=
  ∀ (c : Instr) (s : State), ∃ t, exec c s = .next t ∧ t.pending = s.pending

/-! ## Power-on reset -/

/-- Channel map, watches, slots, halves, gate, counter, index, count table, write queue, memory controller, SDRAM, ports, forward
queues and endpoint after power-on reset (R2, R18, R41, R77, R97, R103, R116, R128, R148, R159, R164 to R170). -/
def Obligations.PowerOnClearsEveryBlock : Prop :=
  ∀ (straps : BitVec 6) (s : State), ∃ t, exec (.powerOnReset straps) s = .next t ∧
    t.handing = none ∧
    (∀ e, t.channel e =
      { valid := false, sourceId := 0, interval := 1, bound := none, sync := .unsynced, expected := 0, lastTimestamp := 0 }) ∧
    (∀ w, (t.watch w).config =
        { channel := 0, kind := .above, thresholdA := 0, thresholdB := 0, hysteresis := 0, sensitivity := .edge, qualify := 1,
          polarity := .rising, windowMin := 0, windowMax := 16777215, target := 0 } ∧
      (t.watch w).state = .off ∧ (t.watch w).progress = 0 ∧ (t.watch w).startTime = 0 ∧ (t.watch w).lastResult = .none ∧
      (t.watch w).lastFire = 0 ∧ (t.watch w).lastOutcome = .none ∧ (t.watch w).phase = .away) ∧
    (∀ i, (t.slot i).config = { base := 0, size := 512, pre := 0, post := 256, early := 0, retrigger := .ignore, full := .stop } ∧
      (t.slot i).live =
        { state := .idle, active := none, writePos := 0, postTarget := 0, firstPostPending := false, earlyRaised := false,
          lastStored := 0 } ∧
      ∀ h, t.record i h =
        { state := .empty, captureNumber := 0, triggerSource := 0, triggerTime := 0, start := 0, preCount := 0, postCount := 0,
          filled := 0, retriggers := 0, gaps := 0, lost := 0, extended := false, clipped := false, truncated := false,
          lastSampleTime := 0 }) ∧
    t.capture = { gateOpen := true, counter := 0, index := [], tableOn := false, tableBase := 0 } ∧ t.queue = [] ∧
    (t.ctl.state = .uninit ∧ t.ctl.holdRequest = false ∧ t.ctl.op = none ∧ t.ctl.reads = [] ∧ t.ctl.refreshDue = false ∧
      t.ctl.timer.running = false ∧ (∀ w : Fin 16, t.ctl.dirty[w] = false) ∧ (∀ b : Fin 4, t.ctl.banks[b] = none) ∧
      t.ctl.written =
        { refreshInterval := 1560, readLatency := 3, activateToAccess := 3, precharge := 3, minRowOpen := 6 } ∧
      t.ctl.effect = t.ctl.written ∧ ∀ a, t.mem.read a = none) ∧
    (∀ p, (t.port p).receiver = .seek ∧ (t.port p).sweep = .sweeping ∧ (t.port p).tap = 0 ∧ (t.port p).observed = [] ∧
      (t.port p).previous = none ∧ (t.port p).failures = 0 ∧ (t.port p).validRun = 0 ∧ (t.port p).invalidRun = 0 ∧
      (t.port p).frame = none ∧ t.transmitter p = .train false) ∧
    (t.link.u2d = [] ∧ t.link.d2u = []) ∧
    (t.ep.nodeAddress = straps ∧ (∀ i, t.context i = .free) ∧ t.ep.refusal = none ∧ t.ep.fault = none ∧ t.ep.mode = .stop)

/-- The notice unit after power-on reset (R145, with the values of R133 and R134). -/
def Obligations.PowerOnClearsTheNoticeUnit : Prop :=
  ∀ (straps : BitVec 6) (s : State), ∃ t, exec (.powerOnReset straps) s = .next t ∧
    (∀ c : Fin 8, t.notices.pending[c] = 0 ∧ t.notices.enable[c] = 0 ∧ t.notices.announcedFlag c = false) ∧
    t.notices.order =
      #v[classFault, classCaptureDone, classTriggerMissed, classSamplesLost, classOverwritten, classEarly, classWatchFired,
        classState] ∧
    t.notices.express = none ∧ t.notices.holdoff = 100 ∧ t.notices.dispatchBase = 0 ∧ t.notices.dispatchShift = 0 ∧
    t.notices.noticeSlot = none ∧ t.notices.timer.running = false ∧ t.notices.alert = false ∧ t.micros = 0

/-- Every predicate that the steps keep holds of the state after reset. -/
def Obligations.ResetStateIsSound : Prop :=
  State.reset.sound

/-! ## What every step keeps -/

/-- The SDRAM list stays canonical and no queue outgrows its rule (R99, R159). -/
def Obligations.StepKeepsMemoryAndQueues : Prop :=
  ∀ s t : State, s.memoryCanonical ∧ s.withinCapacity → step s = .next t → t.memoryCanonical ∧ t.withinCapacity

/-- A slot records exactly while it has an active half, which is its one ACTIVE half, and the index lists the FULL halves (R56, R86). -/
def Obligations.StepKeepsHalvesAndIndex : Prop :=
  ∀ s t : State, s.captureAgrees → step s = .next t → t.captureAgrees

/-- Configurations stay valid, captures stay within their halves, and their counts within what the half has filled (R53, R81). -/
def Obligations.StepKeepsCapturesWithinHalves : Prop :=
  ∀ s t : State, s.slotsAgree → step s = .next t → t.slotsAgree

/-- Memory state, hold request, operation, timer and timing sets stay in agreement (R117, R118, R121, R125, R129). -/
def Obligations.StepKeepsMemoryStates : Prop :=
  ∀ s t : State, s.memoryAgrees → step s = .next t → t.memoryAgrees

/-- Work never waits at a free port (R107, R124). That the mark of an ARM-SLOT waits in HOLD is the model's choice, log entry 27. -/
def Obligations.StepLeavesNoWorkAtAFreePort : Prop :=
  ∀ s t : State, s.memoryAgrees → s.portBusy → step s = .next t → t.portBusy

/-- A SEALING half always has an entry still to be written, so none is left SEALING once its samples are in memory (R83). -/
def Obligations.StepKeepsSealingHalvesWaiting : Prop :=
  ∀ s t : State, s.memoryAgrees → s.sealingWaits → step s = .next t → t.sealingWaits

/-- Watches keep the constraints of their kinds and live fields that fit their states (R21, R24, R41). -/
def Obligations.StepKeepsWatches : Prop :=
  ∀ s t : State, s.watchesAgree → step s = .next t → t.watchesAgree

/-- Source IDs and bindings stay unique, enabled watches stay on valid entries, recording slots stay bound, and a frame being handed on
stays its entry's (R5, R6, R15, R34, R58). -/
def Obligations.StepKeepsTheChannelMap : Prop :=
  ∀ s t : State, s.mapAgrees → step s = .next t → t.mapAgrees

/-- Notices stay within their classes and the order list a permutation, and no notice that R136 would build is left unbuilt. -/
def Obligations.StepKeepsTheNoticeUnit : Prop :=
  ∀ s t : State, s.noticesAgree ∧ s.noticeBuilt → step s = .next t → t.noticesAgree ∧ t.noticeBuilt

/-- A transmitter whose receiver is UP never idles while something waits for it (R160, R162). -/
def Obligations.StepLeavesNoFrameAtAnIdleTransmitter : Prop :=
  ∀ s t : State, s.transmitBusy → step s = .next t → t.transmitBusy

/-- The frame being sent stays with its holder, contexts keep their order, and a read at the controller is that of the one READING
context (R112, R153, R169, R171). -/
def Obligations.StepKeepsTheEndpoint : Prop :=
  ∀ s t : State, s.endpointAgrees → step s = .next t → t.endpointAgrees

/-! ## The link -/

/-- The 16th symbol at a tap locks the receiver, moves it to the next tap, or ends the sweep (R149, R150). -/
def Obligations.TapValueLocksAdvancesOrFails : Prop :=
  ∀ (s : State) (p : Port) (symbols : List Symbol), (s.port p).receiver = .seek → (s.port p).sweep = .sweeping → symbols ≠ [] →
    ((s.port p).observed ++ symbols).length = 16 →
    ∃ v : TapValue, (v = .zero ↔ ∀ y ∈ (s.port p).observed ++ symbols, ∃ l, y = .train false l) ∧
      (v = .one ↔ ∀ y ∈ (s.port p).observed ++ symbols, ∃ l, y = .train true l) ∧
      ∃ t, exec (.tapValue p symbols) s = .next t ∧
        let x := s.port p
        let locks := 1 ≤ x.tap.toNat ∧ v = .one ∧ x.previous = some .zero
        (locks → t = s.setPort p { x with receiver := .locked, observed := [], validRun := 0, invalidRun := 0 }) ∧
        (¬ locks → x.tap.toNat < 63 → t = s.setPort p { x with tap := x.tap + 1, previous := some v, observed := [] }) ∧
        (¬ locks → x.tap.toNat = 63 → p = .d →
          t = s.setPort .d
            { x with failures := min (x.failures + 1) 255, tap := 0, sweep := .pausing 1000, observed := [], previous := none }) ∧
        (¬ locks → x.tap.toNat = 63 → p = .u → x.failures < 2 →
          t = s.setPort .u
            { x with failures := x.failures + 1, tap := 0, sweep := .pausing 1000, observed := [], previous := none }) ∧
        (¬ locks → x.tap.toNat = 63 → p = .u → 2 ≤ x.failures →
          t.uPort = { x with failures := 3, receiver := .failed, previous := some v, observed := [] } ∧
            RaisedOnly classState 2 { s with uPort := t.uPort } t)

/-- At the end of its pause a receiver begins a new sweep at tap 0 (R150); the holdoff timer runs out, clears, and a notice is built if
R136 then allows (R141). That the microseconds left pass within the command is the model's choice, log entry 3. -/
def Obligations.PauseAndHoldoffRunOut : Prop :=
  (∀ (s : State) (p : Port) (left : Nat), (s.port p).receiver = .seek → (s.port p).sweep = .pausing left → 1 ≤ left →
    ∃ t, exec (.pauseEnd p) s = .next t ∧
      t.port p = { s.port p with tap := 0, sweep := .sweeping, observed := [], previous := none } ∧
      t.micros = s.micros + BitVec.ofNat 32 left ∧
      { t with micros := s.micros, notices := s.notices, uPort := s.uPort, dPort := s.dPort, link := s.link } = s) ∧
  ∀ (s : State) (left : Nat), s.notices.timer = ⟨true, left⟩ → 1 ≤ left → s.noticeBuilt →
    ∃ t, exec .holdoffExpiry s = .next t ∧ t.micros = s.micros + BitVec.ofNat 32 left ∧
      t.notices = ({ s.notices with timer := ⟨false, 0⟩ }).built s.ep.nodeAddress t.micros ∧
      { t with micros := s.micros, notices := s.notices, uPort := s.uPort, dPort := s.dPort, link := s.link } = s

/-- A LOCKED receiver's runs move as R151's table says, up to 8 valid symbols and 16 invalid ones. -/
def Obligations.LockedReceiverCountsItsRuns : Prop :=
  ∀ (s : State) (p : Port), (s.port p).receiver = .locked → (s.port p).validRun < 8 → (s.port p).invalidRun < 16 →
    let x := s.port p
    (∀ y, (y = .idle ∨ (∃ o, y = .data o) ∨ ∃ m, y = .train m true) → x.validRun < 7 →
      exec (.lockedSymbol p y) s = .next (s.setPort p { x with validRun := x.validRun + 1, invalidRun := 0 })) ∧
    (∀ m, exec (.lockedSymbol p (.train m false)) s = .next (s.setPort p { x with validRun := 0, invalidRun := 0 })) ∧
    (∀ y, (y = .startFrame ∨ y = .endFrame) → exec (.lockedSymbol p y) s = .next (s.setPort p { x with invalidRun := 0 })) ∧
    (x.invalidRun < 15 →
      exec (.lockedSymbol p .invalid) s = .next (s.setPort p { x with validRun := 0, invalidRun := x.invalidRun + 1 })) ∧
    (x.invalidRun = 15 → ∃ t, exec (.tapProvedFalse p) s = .next t ∧ (t.port p).receiver = .seek ∧ (t.port p).tap = 0 ∧
      (t.port p).sweep = .sweeping ∧ (t.port p).observed = [] ∧ (t.port p).previous = none ∧ (t.port p).failures = x.failures ∧
      t.setPort p x = s)

/-- The eighth valid symbol brings a LOCKED receiver to UP: failure count and invalid run 0, the port-up source raised (R151). -/
def Obligations.EighthValidSymbolBringsThePortUp : Prop :=
  ∀ (s : State) (p : Port) (y : Symbol), (s.port p).receiver = .locked → (s.port p).validRun = 7 → y.countsValid = true →
    ∃ t, exec (.receiverUp p y) s = .next t ∧
      t.port p = { s.port p with receiver := .up, validRun := 8, failures := 0, invalidRun := 0 } ∧
      t.notices.pending =
        s.notices.pending.set classState (s.notices.pending[classState] ||| match p with | .u => 0x1#32 | .d => 0x8#32) ∧
      t.link.u2d = s.link.u2d ∧ t.link.d2u = s.link.d2u ∧
      { (t.setPort p (s.port p)) with notices := s.notices, link := s.link } = s

/-- An UP receiver assembles frames symbol by symbol (R152, R154). -/
def Obligations.UpReceiverAssemblesFrames : Prop :=
  ∀ (s : State) (p : Port), (s.port p).receiver = .up →
    let x := s.port p
    (exec (.symbolReceived p .startFrame) s = .next (s.setPort p { x with invalidRun := 0, frame := some ⟨[], false⟩ })) ∧
    (∀ o octets, x.frame = some ⟨octets, false⟩ → octets.length < 78 →
      exec (.symbolReceived p (.data o)) s = .next (s.setPort p { x with invalidRun := 0, frame := some ⟨octets ++ [o], false⟩ })) ∧
    (exec (.symbolReceived p .idle) s = .next (s.setPort p { x with invalidRun := 0, frame := none })) ∧
    (∀ y, ((∃ m l, y = .train m l) ∨ y = .invalid) → x.invalidRun < 15 →
      exec (.symbolReceived p y) s = .next (s.setPort p { x with invalidRun := x.invalidRun + 1, frame := none })) ∧
    (∀ y, ((∃ o, y = .data o) ∨ y = .endFrame) → x.frame = none →
      exec (.symbolReceived p y) s = .next (s.setPort p { x with invalidRun := 0 }))

/-- The 79th octet marks the frame oversize and raises the port's FAULT source; the frame keeps no further octet, raises nothing more
and is discarded at its END (R155). -/
def Obligations.OversizeFrameIsMarkedAndDiscarded : Prop :=
  ∀ (s : State) (p : Port) (octets : Frame), (s.port p).receiver = .up →
    (∀ o, (s.port p).frame = some ⟨octets, false⟩ → octets.length = 78 →
      ∃ t, exec (.oversizeFrame p o) s = .next t ∧
        t.port p = { s.port p with invalidRun := 0, frame := some ⟨octets, true⟩ } ∧
        RaisedOnly classFault (match p with | .u => 1 | .d => 2) (s.setPort p (t.port p)) t) ∧
    ((s.port p).frame = some ⟨octets, true⟩ →
      (∀ o, exec (.symbolReceived p (.data o)) s = .next (s.setPort p { s.port p with invalidRun := 0 })) ∧
      exec (.symbolReceived p .endFrame) s = .next (s.setPort p { s.port p with invalidRun := 0, frame := none }))

/-- The sixteenth TRAIN or invalid symbol in a row, and REALIGN, take a receiver to SEEK for a new sweep without its frame; one that was
UP raises the port-down source. REALIGN also clears the failure count, and takes no port beyond the two (R152, R163, R177). -/
def Obligations.LossAndRealignBeginANewSweep : Prop :=
  (∀ (s : State) (p : Port) (y : Symbol), (s.port p).receiver = .up → (s.port p).invalidRun = 15 → y.countsLoss = true →
    ∃ t, exec (.lossOfAlignment p y) s = .next t ∧
      (t.port p).receiver = .seek ∧ (t.port p).sweep = .sweeping ∧ (t.port p).tap = 0 ∧ (t.port p).observed = [] ∧
      (t.port p).previous = none ∧ (t.port p).frame = none ∧ (t.port p).failures = (s.port p).failures ∧
      RaisedOnly classState (match p with | .u => 1 | .d => 4) (s.setPort p (t.port p)) t) ∧
  ∀ (s : State) (i : Fin 4) (q : Taken), s.runsCommand 13 i q →
    let arg := q.request.argument.toNat % 256
    (2 ≤ arg → answersWith .realign s s i q .badValue []) ∧
    ∀ p : Port, arg = (match p with | .u => 0 | .d => 1) →
      ∃ u, answersWith .realign s u i q .ok [] ∧
        u.port p =
          { receiver := .seek, tap := 0, sweep := .sweeping, observed := [], previous := none, failures := 0, validRun := 0,
            invalidRun := 0, frame := none } ∧
        ((s.port p).receiver = .up →
          RaisedOnly classState (match p with | .u => 1 | .d => 4) (s.setPort p (u.port p)) u) ∧
        ((s.port p).receiver ≠ .up → u = s.setPort p (u.port p))

/-- A frame completed at the U port is offered to the U-to-D queue, appended or dropped with STATE source 5; one that the channel map
is not offered, or finds no entry for, has no further effect (R8, R9, R157, R159). No earlier frame is being handed on; that case is
the last clause of SampleFrameIsTakenByItsEntry. -/
def Obligations.FrameCompletedAtUIsForwarded : Prop :=
  ∀ (s : State) (f : Frame), s.uPort.receiver = .up → s.uPort.frame = some ⟨f, false⟩ → s.handing = none →
    (offeredToMap f = true → s.lookup (sampleSource f) = none) →
    ∀ c ∈ [Instr.frameCompletedU, .symbolReceived .u .endFrame],
      ∃ t, exec c s = .next t ∧ t.uPort = { s.uPort with invalidRun := 0, frame := none } ∧
        (s.link.u2d.length < 8 → t.link.u2d = s.link.u2d ++ [f] ∧ t.notices = s.notices ∧ t.link.d2u = s.link.d2u ∧
          t.link.uSending = s.link.uSending ∧ { t with uPort := s.uPort, link := s.link } = s) ∧
        (8 ≤ s.link.u2d.length → RaisedOnly classState 5 { s with uPort := t.uPort } t)

/-- A good SAMPLE frame is taken by the valid entry with its source ID: SYNCED, its sequence plus one expected next, its timestamp noted,
its samples timed by the entry's interval. They are handed on in order, each to the watches of the entry in ascending number and then to
the bound slot; an OFF watch does nothing with one. The frame is forwarded as well (R8 to R10, R13, R14, R37, R157). That SYMBOL_RECEIVED
leaves the samples to later commands, one turn each, and that the END of a further frame finishes them first, is the model's choice, log
entry 19. -/
def Obligations.SampleFrameIsTakenByItsEntry : Prop :=
  (∀ (s : State) (f : Frame) (e : Fin 64), s.uPort.receiver = .up → s.uPort.frame = some ⟨f, false⟩ → s.handing = none →
    goodCrc f = true → frameKind f = 1 → f.length ≤ 78 → 1 ≤ sampleCount f → sampleCount f ≤ 32 →
    f.length = 10 + 2 * sampleCount f → (s.channel e).valid = true → (s.channel e).sourceId = sampleSource f →
    (∀ e', e' ≠ e → (s.channel e').valid = true → (s.channel e').sourceId ≠ sampleSource f) →
    ∃ (u : State) (samples : List (Sample × Tick)), exec (.symbolReceived .u .endFrame) s = .next u ∧
      exec .frameCompletedU s = .next (finishHanding u) ∧
      u.handing = some { entry := e, bound := (s.channel e).bound, turn := 0, rest := samples } ∧
      samples.length = sampleCount f ∧
      (∀ i, i < sampleCount f → samples[i]? =
        some (word16At f (8 + 2 * i), sampleTimestamp f + BitVec.ofNat 32 (i * (s.channel e).interval.toNat))) ∧
      u.uPort = { s.uPort with invalidRun := 0, frame := none } ∧
      (s.link.u2d.length < 8 → u.link.u2d = s.link.u2d ++ [f] ∧ u.notices = s.notices ∧ u.link.d2u = s.link.d2u ∧
        u.link.uSending = s.link.uSending) ∧
      (8 ≤ s.link.u2d.length → RaisedOnly classState 5
        { s with channels := u.channels, handing := u.handing, watches := u.watches, slots := u.slots, uPort := u.uPort } u) ∧
      { u with
        channels := s.channels, handing := s.handing, watches := s.watches, slots := s.slots, uPort := s.uPort,
        notices := s.notices, link := s.link } = s ∧
      ∀ t ∈ [u, finishHanding u], t.channel e =
          { s.channel e with sync := .synced, expected := sampleSequence f + 1, lastTimestamp := sampleTimestamp f } ∧
        (∀ e', e' ≠ e → t.channel e' = s.channel e') ∧ (∀ w, (t.watch w).config = (s.watch w).config) ∧
        (∀ i, (t.slot i).config = (s.slot i).config) ∧ t.mem = s.mem ∧ t.ep = s.ep ∧ t.dPort = s.dPort ∧
        t.link.d2u = s.link.d2u ∧ (s.link.u2d.length < 8 → t.link.u2d = s.link.u2d ++ [f])) ∧
  (∀ s : State, (s.uPort.receiver ≠ .up ∨ s.uPort.frame = none ∨ ∃ octets, s.uPort.frame = some ⟨octets, true⟩) →
    exec .frameCompletedU s = .next (takeTurn s)) ∧
  (∀ (s : State) (x : Handing) (v : Sample) (time : Tick) (later : List (Sample × Tick)), s.handing = some x →
    x.rest = (v, time) :: later →
    (∀ w : Fin 32, x.turn = w.val →
      let s1 := { s with handing := some { x with turn := w.val + 1 } }
      takeTurn s = if (s.watch w).config.channel = x.entry then watchSample w v time s1 else s1) ∧
    (x.turn = 32 →
      let s1 := { s with handing := if later = [] then none else some { x with turn := 0, rest := later } }
      (x.bound = none → takeTurn s = s1) ∧ ∀ i, x.bound = some i → takeTurn s = slotSample i v time s1)) ∧
  (∀ (s : State) (w : Fin 32) (v : Sample) (time : Tick),
    ((s.watch w).state = .off → watchSample w v time s = s) ∧
    (∀ y, (s.watch w).onSample v time = (y, true) → watchSample w v time s = fireWatch w time (s.setWatch w y)) ∧
    ∀ y, (s.watch w).onSample v time = (y, false) → watchSample w v time s = s.setWatch w y) ∧
  (∀ s : State, (finishHanding s).handing = none ∧ finishHanding s = finishHanding (takeTurn s) ∧
    (s.handing = none → finishHanding s = s)) ∧
  ∀ (s : State) (f : Frame), s.uPort.receiver = .up → s.uPort.frame = some ⟨f, false⟩ →
    ∀ c ∈ [Instr.frameCompletedU, .symbolReceived .u .endFrame], exec c s = exec c (finishHanding s)

/-- A frame that a SYNCED entry takes with another sequence number than expected shows a gap: before any of its samples is handed on, the
entry's watches that are not OFF return to their start states and the bound slot's ACTIVE half counts one. Without a gap neither watches
nor slots change. No trigger is requested and no source raised (R10 to R12, R30). That SYMBOL_RECEIVED stops before the first sample is
the model's choice, log entry 19. -/
def Obligations.GapRestartsWatchesAndIsCounted : Prop :=
  ∀ (s : State) (f : Frame) (e : Fin 64), s.uPort.receiver = .up → s.uPort.frame = some ⟨f, false⟩ → s.handing = none →
    goodCrc f = true → frameKind f = 1 → f.length ≤ 78 → 1 ≤ sampleCount f → sampleCount f ≤ 32 →
    f.length = 10 + 2 * sampleCount f → (s.channel e).valid = true → (s.channel e).sourceId = sampleSource f →
    (∀ e', e' ≠ e → (s.channel e').valid = true → (s.channel e').sourceId ≠ sampleSource f) →
    let gap := (s.channel e).sync = .synced ∧ sampleSequence f ≠ (s.channel e).expected
    ∃ u, exec (.symbolReceived .u .endFrame) s = .next u ∧ exec .frameCompletedU s = .next (finishHanding u) ∧
      (gap → ∀ w, (s.watch w).config.channel = e → (s.watch w).state ≠ .off →
        u.watch w = { s.watch w with
          state := match (s.watch w).config.kind, (s.watch w).config.sensitivity with
            | .above, .level => .clear
            | .below, .level => .clear
            | .bandOut, .level => .clear
            | _, _ => .unprimed
          progress := 0, startTime := 0, phase := .away }) ∧
      (gap → ∀ w, ((s.watch w).config.channel ≠ e ∨ (s.watch w).state = .off) → u.watch w = s.watch w) ∧
      (gap → ∀ i h, (s.channel e).bound = some i → (s.slot i).live.active = some h →
        u.slots = (s.setRecord i h { s.record i h with gaps := min ((s.record i h).gaps + 1) 255 }).slots) ∧
      (gap → ((s.channel e).bound = none ∨ ∃ i, (s.channel e).bound = some i ∧ (s.slot i).live.active = none) →
        u.slots = s.slots) ∧
      (¬ gap → u.watches = s.watches ∧ u.slots = s.slots) ∧ u.capture = s.capture ∧ u.queue = s.queue ∧ u.ctl = s.ctl ∧
      (s.link.u2d.length < 8 → u.notices = s.notices)

/-! ## Watches -/

/-- The side of a sample under a level kind, in exact integers (R23). -/
def Obligations.LevelKindsSortSamplesBySide : Prop :=
  ∀ (c : WatchConfig) (v : Sample),
    let s := v.toInt
    let a := c.thresholdA.toInt
    let b := c.thresholdB.toInt
    let h : Int := c.hysteresis.toNat
    (c.kind = .above → (c.side s = .onTrue ↔ s > a) ∧ (c.side s = .onFalse ↔ s < a - h) ∧
      (c.side s = .hold ↔ a - h ≤ s ∧ s ≤ a)) ∧
    (c.kind = .below → (c.side s = .onTrue ↔ s < a) ∧ (c.side s = .onFalse ↔ s > a + h) ∧
      (c.side s = .hold ↔ a ≤ s ∧ s ≤ a + h)) ∧
    (c.kind = .bandOut → c.constrained = true → (c.side s = .onTrue ↔ s > a ∨ s < b) ∧
      (c.side s = .onFalse ↔ b + h ≤ s ∧ s ≤ a - h) ∧ (c.side s = .hold ↔ (a - h < s ∧ s ≤ a) ∨ (b ≤ s ∧ s < b + h)))

/-- A level watch's moves and fires on one sample (R25 to R28). -/
def Obligations.LevelWatchMovesOneStepPerSample : Prop :=
  ∀ (x : Watch) (v : Sample) (time : Tick), (x.config.kind = .above ∨ x.config.kind = .below ∨ x.config.kind = .bandOut) →
    let side := x.config.side v.toInt
    (x.state = .unprimed → side = .onFalse → x.onSample v time = ({ x with state := .clear }, false)) ∧
    (x.state = .unprimed → side ≠ .onFalse → x.onSample v time = (x, false)) ∧
    (x.state = .clear → side ≠ .onTrue → x.onSample v time = (x, false)) ∧
    (x.state = .clear → side = .onTrue → x.config.qualify = 1 →
      x.onSample v time = ({ x with state := .asserted, progress := 0 }, true)) ∧
    (x.state = .clear → side = .onTrue → 2 ≤ x.config.qualify →
      x.onSample v time = ({ x with state := .qualifying, progress := 1 }, false)) ∧
    (x.state = .qualifying → side ≠ .onTrue → x.onSample v time = ({ x with state := .clear, progress := 0 }, false)) ∧
    (x.state = .qualifying → side = .onTrue → x.progress + 1 < x.config.qualify →
      x.onSample v time = ({ x with progress := x.progress + 1 }, false)) ∧
    (x.state = .qualifying → side = .onTrue → x.progress + 1 = x.config.qualify →
      x.onSample v time = ({ x with state := .asserted, progress := 0 }, true)) ∧
    (x.state = .asserted → side = .onFalse → x.onSample v time = ({ x with state := .clear }, false)) ∧
    (x.state = .asserted → side = .hold → x.onSample v time = (x, false)) ∧
    (x.state = .asserted → side = .onTrue → x.config.sensitivity = .edge → x.onSample v time = (x, false)) ∧
    (x.state = .asserted → side = .onTrue → x.config.sensitivity = .level → x.onSample v time = (x, true))

/-- A crossing watch is primed by one sample and fired by another (R29). -/
def Obligations.CrossingWatchPrimesThenFires : Prop :=
  ∀ (x : Watch) (v : Sample) (time : Tick),
    let s := v.toInt
    let a := x.config.thresholdA.toInt
    let h : Int := x.config.hysteresis.toNat
    (x.config.kind = .rise →
      (x.state = .unprimed → s < a - h → x.onSample v time = ({ x with state := .clear }, false)) ∧
      (x.state = .unprimed → ¬ s < a - h → x.onSample v time = (x, false)) ∧
      (x.state = .clear → s > a → x.onSample v time = ({ x with state := .unprimed }, true)) ∧
      (x.state = .clear → ¬ s > a → x.onSample v time = (x, false))) ∧
    (x.config.kind = .fall →
      (x.state = .unprimed → s > a + h → x.onSample v time = ({ x with state := .clear }, false)) ∧
      (x.state = .unprimed → ¬ s > a + h → x.onSample v time = (x, false)) ∧
      (x.state = .clear → s < a → x.onSample v time = ({ x with state := .unprimed }, true)) ∧
      (x.state = .clear → ¬ s < a → x.onSample v time = (x, false)))

/-- A measuring watch: priming, the start of a measurement, overrun, the end of a width and of a period, and the window (R42 to R47). -/
def Obligations.MeasuringWatchTimesWidthsAndPeriods : Prop :=
  ∀ (x : Watch) (v : Sample) (time : Tick), (x.config.kind = .width ∨ x.config.kind = .period) →
    let s := v.toInt
    let a := x.config.thresholdA.toInt
    let h : Int := x.config.hysteresis.toNat
    let leading := match x.config.polarity with | .rising => s > a | .falling => s < a
    let trailing := match x.config.polarity with | .rising => s < a - h | .falling => s > a + h
    let elapsed := (time - x.startTime).toNat
    let outside := decide (elapsed < x.config.windowMin.toNat) || decide (x.config.windowMax.toNat < elapsed)
    let result := LastResult.result (BitVec.ofNat 24 elapsed)
    (x.state = .unprimed → trailing → x.onSample v time = ({ x with state := .clear }, false)) ∧
    (x.state = .unprimed → ¬ trailing → x.onSample v time = (x, false)) ∧
    (x.state = .clear → leading →
      x.onSample v time = ({ x with state := .measuring, startTime := time, phase := .away }, false)) ∧
    (x.state = .clear → ¬ leading → x.onSample v time = (x, false)) ∧
    (x.state = .measuring → 16777215 < elapsed →
      x.onSample v time =
        ({ x with state := .unprimed, progress := 0, startTime := 0, phase := .away, lastResult := .overrun }, true)) ∧
    (x.state = .measuring → elapsed ≤ 16777215 → x.config.kind = .width →
      (trailing → x.onSample v time =
        ({ x with state := .clear, progress := 0, startTime := 0, phase := .away, lastResult := result }, outside)) ∧
      (¬ trailing → x.onSample v time = (x, false))) ∧
    (x.state = .measuring → elapsed ≤ 16777215 → x.config.kind = .period →
      (trailing → x.onSample v time = ({ x with phase := .back }, false)) ∧
      (leading → x.phase = .back →
        x.onSample v time = ({ x with lastResult := result, startTime := time, phase := .away }, outside)) ∧
      (leading → x.phase = .away → x.onSample v time = (x, false)) ∧
      (¬ trailing → ¬ leading → x.onSample v time = (x, false)))

/-- A firing watch notes the time, consults the gate, asks its target for a trigger when the gate is OPEN, notes the outcome by the
state the slot is found in, and raises WATCH-FIRED under its own number (R31 to R33). -/
def Obligations.FiringWatchNotesTimeAndOutcome : Prop :=
  ∀ (s : State) (w : Fin 32) (time : Tick),
    let target := s.slot (s.watch w).config.target
    let outcome : RequestOutcome :=
      if s.capture.gateOpen = false then .gated
      else match target.live.state with
        | .armed => .taken
        | .post => .retriggered
        | .idle => .refusedIdle
        | .stalled => .refusedStalled
    (fireWatch w time s).watch w = { s.watch w with lastFire := time, lastOutcome := outcome } ∧
    (∀ v, v ≠ w → (fireWatch w time s).watch v = s.watch v) ∧
    (fireWatch w time s).notices.pending[classWatchFired].getLsbD w.val = true ∧
    (s.capture.gateOpen = false → (fireWatch w time s).slots = s.slots) ∧
    (s.capture.gateOpen = true →
      (fireWatch w time s).slots = (trigger (s.watch w).config.target w.val time s).1.slots) ∧
    (∀ i, i ≠ (s.watch w).config.target → (fireWatch w time s).slot i = s.slot i) ∧
    (fireWatch w time s).capture = s.capture ∧ (fireWatch w time s).channels = s.channels ∧
    (fireWatch w time s).queue = s.queue

/-! ## Slots -/

/-- What a trigger request does to a slot, by the state it finds; FORCE-TRIGGER makes one with source 32 whatever the gate, and is
answered OK when it is taken or retriggers, WRONG_STATE when refused (R64, R65, R68 to R70). -/
def Obligations.TriggerRequestActsByTheSlotState : Prop :=
  (∀ (s : State) (c : Fin 4) (q : Taken), s.runsCommand 3 c q →
    let arg := q.request.argument.toNat % 256
    (8 ≤ arg → answersWith .forceTrigger s s c q .badValue []) ∧
    ∀ i : Fin 8, i.val = arg →
      answersWith .forceTrigger s (trigger i 32 0 s).1 c q
        (match (s.slot i).live.state with
          | .idle => .wrongState
          | .stalled => .wrongState
          | .armed => .ok
          | .post => .ok) []) ∧
  ∀ (s : State) (i : Fin 8) (source : Nat) (time : Tick),
    let x := s.slot i
    (x.live.state = .idle → trigger i source time s = (s, .refusedIdle)) ∧
    (x.live.state = .stalled → (trigger i source time s).2 = .refusedStalled ∧
      RaisedOnly classTriggerMissed (slotSource i) s (trigger i source time s).1) ∧
    (∀ h, x.live.state = .armed → x.live.active = some h →
      trigger i source time s =
        (s.setSlot i
          { x.setRecord h { x.record h with
              triggerSource := source, triggerTime := time, preCount := min x.config.pre (x.record h).filled, postCount := 0 } with
            live := { x.live with
              state := .post, postTarget := x.config.post, firstPostPending := true, earlyRaised := false } }, .taken)) ∧
    (∀ h, x.live.state = .post → x.live.active = some h → x.config.retrigger = .ignore →
      trigger i source time s =
        (s.setRecord i h { x.record h with retriggers := min ((x.record h).retriggers + 1) 255 }, .retriggered)) ∧
    (∀ h, x.live.state = .post → x.live.active = some h → x.config.retrigger = .extend →
      let r := x.record h
      let fitsIn := r.preCount + (r.postCount + x.config.post) ≤ x.config.size
      trigger i source time s =
        (s.setSlot i
          { x.setRecord h { r with
              retriggers := min (r.retriggers + 1) 255, extended := true, clipped := if fitsIn then r.clipped else true } with
            live := { x.live with
              postTarget := if fitsIn then r.postCount + x.config.post else x.config.size - r.preCount } }, .retriggered))

/-- A sample reaching an ARMED slot is stored at the write position and queued with its address, which is work arriving: a choice for the
memory arbiter, and in HOLD the exit. With 128 entries queued it is lost and counted; an IDLE or STALLED slot does nothing with it (R53,
R61 to R63, R107, R124, R126). -/
def Obligations.ArmedSlotStoresOrLosesASample : Prop :=
  ∀ (s : State) (i : Fin 8) (v : Sample) (time : Tick),
    let x := s.slot i
    let entry := fun h : Half => (⟨i, h, x.live.writePos, v,
      BitVec.ofNat 24 (x.config.base + h.number * x.config.size + x.live.writePos)⟩ : QueueEntry)
    (∀ h, x.live.state = .armed → x.live.active = some h → s.queue.length < 128 →
      let t := slotSample i v time s
      t.slot i =
        { x.setRecord h { x.record h with filled := min ((x.record h).filled + 1) x.config.size } with
          live := { x.live with writePos := (x.live.writePos + 1) % x.config.size, lastStored := time } } ∧
      (∀ j, j ≠ i → t.slot j = s.slot j) ∧
      (s.ctl.op ≠ none → s.ctl.state ≠ .hold → t.queue = s.queue ++ [entry h] ∧ t.ctl = s.ctl) ∧
      (s.ctl.state ≠ .hold → { t with slots := s.slots } = chooseMem { s with queue := s.queue ++ [entry h] }) ∧
      (s.ctl.state = .hold → { t with slots := s.slots } =
        { s with
          queue := s.queue ++ [entry h]
          ctl := { s.ctl with
            state := .exiting, effect := s.ctl.written
            op := some (.exitSequence (decide (s.ctl.written.readLatency ≠ s.ctl.effect.readLatency))) } }) ∧
      t.notices = s.notices ∧ t.watches = s.watches ∧ t.capture = s.capture) ∧
    (∀ h, (x.live.state = .armed ∨ x.live.state = .post) → x.live.active = some h → 128 ≤ s.queue.length →
      RaisedOnly classSamplesLost (slotSource i)
        (s.setRecord i h { x.record h with lost := min ((x.record h).lost + 1) 65535 }) (slotSample i v time s)) ∧
    ((x.live.state = .idle ∨ x.live.state = .stalled) → slotSample i v time s = s)

/-- A sample stored in POST: queued at the write position like any other; the first one fixes the start position and a FORCE-TRIGGER's
time; each counts toward the target; EARLY is raised once, when exactly E remain; at the target the half leaves for SEALING, its last
sample time noted, and the slot takes its next half, whose count word is marked (R61, R66, R67, R71, R73, R95, R107, R124). That the
sample's entry arrives before the count word's mark is log entry 11. -/
def Obligations.PostSampleAdvancesTheCapture : Prop :=
  ∀ (s : State) (i : Fin 8) (h : Half) (v : Sample) (time : Tick), (s.slot i).live.state = .post →
    (s.slot i).live.active = some h → s.queue.length < 128 → (s.slot i).live.writePos < (s.slot i).config.size →
    (s.record i h).preCount ≤ (s.slot i).config.size →
    let x := s.slot i
    let r := s.record i h
    let t := slotSample i v time s
    let first := x.live.firstPostPending = true
    let arrive := fun a : State =>
      if a.ctl.state = .hold then
        { a with ctl := { a.ctl with
            state := .exiting, effect := a.ctl.written
            op := some (.exitSequence (decide (a.ctl.written.readLatency ≠ a.ctl.effect.readLatency))) } }
      else chooseMem a
    let u := arrive { s with queue := s.queue ++
      [⟨i, h, x.live.writePos, v, BitVec.ofNat 24 (x.config.base + h.number * x.config.size + x.live.writePos)⟩] }
    let word := countWordOf i h.other
    let marked := arrive { u with slots := t.slots, ctl := { u.ctl with dirty := u.ctl.dirty.set word true } }
    ((t.record i h).postCount = r.postCount + 1 ∧ (t.record i h).filled = min (r.filled + 1) x.config.size ∧
      (first → ((t.record i h).start + r.preCount) % x.config.size = x.live.writePos ∧ (t.record i h).start < x.config.size ∧
        (t.record i h).triggerTime = if r.triggerSource = 32 then time else r.triggerTime) ∧
      (¬ first → (t.record i h).start = r.start ∧ (t.record i h).triggerTime = r.triggerTime) ∧
      (t.record i h).preCount = r.preCount ∧ (t.record i h).triggerSource = r.triggerSource ∧ (t.record i h).gaps = r.gaps ∧
      (t.record i h).lost = r.lost ∧ (t.record i h).retriggers = r.retriggers ∧ ∀ k, k ≠ i → t.slot k = s.slot k) ∧
    (r.postCount + 1 ≠ x.live.postTarget →
      (t.slot i).live.writePos = (x.live.writePos + 1) % x.config.size ∧ t.queue = u.queue ∧ t.ctl = u.ctl ∧
      (t.slot i).live.state = .post ∧ (t.slot i).live.firstPostPending = false ∧ (t.slot i).live.lastStored = time ∧
      (x.config.early ≠ 0 → x.live.earlyRaised = false → r.postCount + 1 + x.config.early = x.live.postTarget →
        (t.slot i).live.earlyRaised = true ∧ t.notices.pending[classEarly].getLsbD i.val = true) ∧
      ((x.config.early = 0 ∨ x.live.earlyRaised = true ∨ r.postCount + 1 + x.config.early ≠ x.live.postTarget) →
        (t.slot i).live.earlyRaised = x.live.earlyRaised ∧ t.notices = s.notices)) ∧
    (r.postCount + 1 = x.live.postTarget →
      (t.record i h).state = .sealing ∧ (t.record i h).lastSampleTime = time ∧ (t.slot i).live.active ≠ some h ∧
      ((s.record i h.other).state = .empty → (t.slot i).live.state = .armed ∧ (t.slot i).live.active = some h.other ∧
        t.record i h.other = CaptureRecord.cleared .active) ∧
      ((s.record i h.other).state = .sealing → t.slot i = { t.slot i with live := SlotLive.cleared .stalled }) ∧
      ((s.record i h.other).state = .full → x.config.full = .stop →
        t.slot i = { t.slot i with live := SlotLive.cleared .stalled }) ∧
      ((s.record i h.other).state = .full → x.config.full = .overwrite →
        (t.slot i).live.active = some h.other ∧ t.record i h.other = CaptureRecord.cleared .active ∧
        t.capture.index = s.capture.index.filter (fun e => decide (e ≠ (i, h.other))) ∧
        t.notices.pending[classOverwritten].getLsbD i.val = true) ∧
      (((t.slot i).live.state = .stalled ∨ s.capture.tableOn = false ∨ u.ctl.dirty[word] = true) →
        t.queue = u.queue ∧ t.ctl = u.ctl) ∧
      ((t.slot i).live.state = .armed → s.capture.tableOn = true → u.ctl.dirty[word] = false →
        t.queue = marked.queue ∧ t.ctl = marked.ctl))

/-! ## The notice unit and the arbiters -/

/-- A notice is built for the express class when that is eligible, else, the holdoff timer not running, for the first eligible class of
the order list; it carries what R137 and R138 say, and its class is announced. With the notice slot full, with address 63, or with
neither choice to be had, nothing is built (R136 to R139). -/
def Obligations.NoticeIsBuiltForTheRightClass : Prop :=
  ∀ s : State,
    let u := s.notices
    let eligible := fun k : Fin 8 => u.pending[k] &&& u.enable[k] ≠ 0 ∧ u.announcedFlag k = false
    (∀ c : Fin 8, u.noticeSlot = none → s.ep.nodeAddress ≠ 63 →
      ((u.express = some c ∧ eligible c) ∨
        ((∀ k, u.express = some k → ¬ eligible k) ∧ u.timer.running = false ∧
          ∃ before after, u.order.toList = before ++ c :: after ∧ eligible c ∧ ∀ k ∈ before, ¬ eligible k)) →
      ∃ n, (build s).notices = { u with noticeSlot := some n, announced := setAnnounced u.announced c true } ∧
        n.responder = s.ep.nodeAddress ∧ n.cls = c ∧ n.sources = u.pending[c] &&& u.enable[c] ∧
        n.sources.getLsbD n.lowest.val = true ∧ (∀ k, k < n.lowest.val → n.sources.getLsbD k = false) ∧
        n.dispatch.toNat = (u.dispatchBase.toNat + (c.val * 32 + n.lowest.val) * 2 ^ u.dispatchShift.val) % 65536 ∧
        n.time = s.micros ∧ (n.express = true ↔ u.express = some c)) ∧
    (u.noticeSlot ≠ none → build s = s) ∧ (s.ep.nodeAddress = 63 → build s = s) ∧
    ((∀ k, u.express = some k → ¬ eligible k) → (u.timer.running = true ∨ ∀ k ∈ u.order.toList, ¬ eligible k) → build s = s)

/-- At a decision point the memory arbiter begins the first of R108's five items that applies; with none, ENTERING begins the closing
operation and READY nothing; outside READY and ENTERING, and with an operation on the port, it begins nothing (R107 to R109, R115, R122).
That the due mark is cleared as its refresh begins is log entry 13. -/
def Obligations.MemoryArbiterFollowsItsOrder : Prop :=
  ∀ s : State,
    let c := s.ctl
    let burst := { s with queue := (takeBurst s.queue).2, ctl := { c with op := some (.burst (takeBurst s.queue).1) } }
    (c.state ≠ .ready → c.state ≠ .entering → chooseMem s = s) ∧ (c.op ≠ none → chooseMem s = s) ∧
    ((c.state = .ready ∨ c.state = .entering) → c.op = none →
      (c.refreshDue = true → chooseMem s = { s with ctl := { c with op := some .refresh, refreshDue := false } }) ∧
      (c.refreshDue = false → 64 ≤ s.queue.length → chooseMem s = burst) ∧
      (c.refreshDue = false → s.queue.length < 64 → c.reads ≠ [] →
        chooseMem s = { s with ctl := { c with op := some .fetchRead } }) ∧
      (∀ w : Fin 16, c.refreshDue = false → s.queue.length < 64 → c.reads = [] → c.dirty[w] = true →
        (∀ v : Fin 16, v < w → c.dirty[v] = false) →
        chooseMem s = { s with ctl := { c with
          op := some (.countWrite w (s.capture.tableBase + BitVec.ofNat 24 w.val)
            (BitVec.ofNat 16 (min (s.record (halfOfCountWord w).1 (halfOfCountWord w).2).filled 65535)))
          dirty := c.dirty.set w false } }) ∧
      (c.refreshDue = false → s.queue.length < 64 → c.reads = [] → (∀ w : Fin 16, c.dirty[w] = false) →
        (s.queue ≠ [] → chooseMem s = burst) ∧
        (s.queue = [] → c.state = .entering → chooseMem s = { s with ctl := { c with op := some .closing } }) ∧
        (s.queue = [] → c.state = .ready → chooseMem s = s)))

/-- A burst takes the head entry and then every following one that continues its half's run, up to 16; the first that does not stays at
the head (R101). -/
def Obligations.BurstTakesTheRunAtTheHead : Prop :=
  ∀ q : List QueueEntry, q ≠ [] →
    (takeBurst q).1 ++ (takeBurst q).2 = q ∧ burstShape (takeBurst q).1 ∧
    ∀ last next rest, (takeBurst q).1.getLast? = some last → (takeBurst q).2 = next :: rest →
      (takeBurst q).1.length = 16 ∨ ¬ (next.slot = last.slot ∧ next.half = last.half ∧ next.position = last.position + 1)

/-- The D transmit arbiter takes the first of R161's five items that applies. The response on offer is the refusal slot's BUSY response,
and without one that of the oldest context that is not FREE, if it is ANSWERING (R161, R170, R173). -/
def Obligations.TransmitArbiterFollowsItsOrder : Prop :=
  ∀ s : State,
    let head := s.link.u2d.head?.map fun f => (⟨.forward, f⟩ : DSending)
    let offers := fun (holder : DHolder) (r : Response) =>
      (∃ x, s.ep.refusal = some x ∧ holder = .busy ∧ r = x.response) ∨
        (s.ep.refusal = none ∧ ∃ i q, holder = .context i ∧ s.context i = .answering q r ∧
          ∀ j n, j ≠ i → (s.context j).order = some n → q.order < n)
    let offersNone := s.ep.refusal = none ∧ ∀ i q r, s.context i = .answering q r →
      ∃ j n, j ≠ i ∧ (s.context j).order = some n ∧ n < q.order
    (6 ≤ s.link.u2d.length → s.dCandidate = head) ∧
    (∀ n, s.link.u2d.length < 6 → s.notices.noticeSlot = some n → n.express = true →
      s.dCandidate = some ⟨.notice, n.frame⟩) ∧
    (∀ holder r, s.link.u2d.length < 6 → (∀ n, s.notices.noticeSlot = some n → n.express = false) → offers holder r →
      s.dCandidate = some ⟨holder, r.frame s.ep.nodeAddress⟩) ∧
    (∀ n, s.link.u2d.length < 6 → s.notices.noticeSlot = some n → n.express = false → offersNone →
      s.dCandidate = some ⟨.notice, n.frame⟩) ∧
    (s.link.u2d.length < 6 → s.notices.noticeSlot = none → offersNone → s.dCandidate = head)

/-! ## Taking requests -/

/-- A frame completed at the D port that is no request for this part goes to the D-to-U queue alone, appended or dropped with STATE
source 6. A broadcast request goes there too, after the endpoint has had it: a wrong sum fills an invalid fault record and raises FAULT
source 0; a WRITE or COMMAND takes the lowest FREE context, and with none free is discarded; any other op is discarded (R158, R159, R165,
R166, R169). That the endpoint has it first is the model's choice, log entry 10. -/
def Obligations.FrameCompletedAtDIsRelayed : Prop :=
  (∀ (s : State) (f : Frame), s.dPort.receiver = .up → s.dPort.frame = some ⟨f, false⟩ →
    ¬ (goodCrc f = true ∧ frameKind f = 2 ∧ 14 ≤ f.length ∧
      (frameDestination f = s.ep.nodeAddress ∨ frameDestination f = 63)) →
    ∃ t, exec .frameCompletedD s = .next t ∧ t.dPort = { s.dPort with invalidRun := 0, frame := none } ∧
      (s.link.d2u.length < 8 → t.link.d2u = s.link.d2u ++ [f] ∧ { t with dPort := s.dPort, link := s.link } = s ∧
        t.link.u2d = s.link.u2d ∧ t.link.dSending = s.link.dSending) ∧
      (8 ≤ s.link.d2u.length → RaisedOnly classState 6 { s with dPort := t.dPort } t)) ∧
  ∀ (s : State) (f : Frame), s.dPort.receiver = .up → s.dPort.frame = some ⟨f, false⟩ → goodCrc f = true → frameKind f = 2 →
    14 ≤ f.length → frameDestination f = 63 →
    let r := Request.ofFrame f
    let s1 := { s with dPort := { s.dPort with invalidRun := 0, frame := none } }
    let runs := r.op = 2 ∨ r.op = 3
    ∃ u t, exec .frameCompletedD s = .next t ∧
      (r.checkSum ≠ 0 → RaisedOnly classFault 0 { s1 with ep := u.ep } u ∧ (s.ep.fault ≠ none → u.ep = s.ep) ∧
        (s.ep.fault = none → ∃ rec, u.ep = { s.ep with fault := some rec } ∧ rec.tag = r.tag ∧ rec.op = r.op ∧
          rec.code = r.space ∧ rec.cause = .check)) ∧
      (∀ i, r.checkSum = 0 → runs → s.context i = .free → (∀ j, j < i → s.context j ≠ .free) →
        u = { s1 with ep := { s.ep with
          contexts := s.ep.contexts.set i (.waiting ⟨r, s.ep.accepted⟩), accepted := s.ep.accepted + 1 } }) ∧
      (r.checkSum = 0 → runs → (∀ i, s.context i ≠ .free) → u = s1) ∧ (r.checkSum = 0 → ¬ runs → u = s1) ∧
      (s.link.d2u.length < 8 → t.link.d2u = s.link.d2u ++ [f] ∧ { t with link := u.link } = u ∧ t.link.u2d = u.link.u2d ∧
        t.link.dSending = u.link.dSending) ∧
      (8 ≤ s.link.d2u.length → RaisedOnly classState 6 u t)

/-- A request to the node address is not forwarded. Its octets summing to 0, it takes the lowest FREE context as WAITING, or, with none
free, the empty refusal slot with a BUSY response, or is discarded; its sum being wrong, it fills an invalid fault record and raises
FAULT source 0 (R158, R166, R167, R169, R170). -/
def Obligations.AddressedRequestTakesAContext : Prop :=
  ∀ (s : State) (f : Frame), s.dPort.receiver = .up → s.dPort.frame = some ⟨f, false⟩ → goodCrc f = true → frameKind f = 2 →
    14 ≤ f.length → frameDestination f = s.ep.nodeAddress → s.ep.nodeAddress ≠ 63 →
    let r := Request.ofFrame f
    ∃ t, exec .frameCompletedD s = .next t ∧ t.dPort = { s.dPort with invalidRun := 0, frame := none } ∧
      t.link.d2u = s.link.d2u ∧ t.link.u2d = s.link.u2d ∧
      (∀ i, r.checkSum = 0 → s.context i = .free → (∀ j, j < i → s.context j ≠ .free) →
        t.context i = .waiting ⟨r, s.ep.accepted⟩ ∧ (∀ j, j ≠ i → t.context j = s.context j) ∧
          t.ep.accepted = s.ep.accepted + 1 ∧ t.ep.refusal = s.ep.refusal ∧ t.ep.fault = s.ep.fault ∧
          { t with dPort := s.dPort, ep := s.ep } = s) ∧
      (r.checkSum = 0 → (∀ i, s.context i ≠ .free) →
        (s.ep.refusal = none →
          t.ep = { s.ep with refusal := some ⟨r, { tag := r.tag, status := .busy, words := [] }⟩ } ∧
            { t with dPort := s.dPort, ep := s.ep, link := s.link } = s) ∧
        (s.ep.refusal ≠ none → { t with dPort := s.dPort } = s)) ∧
      (r.checkSum ≠ 0 →
        (s.ep.fault = none → ∃ rec, t.ep = { s.ep with fault := some rec } ∧ rec.tag = r.tag ∧ rec.op = r.op ∧
          rec.code = r.space ∧ rec.cause = .check) ∧
        (s.ep.fault ≠ none → t.ep = s.ep) ∧
        RaisedOnly classFault 0 { s with dPort := t.dPort, ep := t.ep } t)

/-- The WAITING request taken first executes next, while no context is READING. One that fails R172's check of op and length, the fault
test of R168, or the check of a COMMAND's code is answered with that check's status and changes nothing else, whichever of the rows of
its op executes it; any other goes on to the checks of its op (R168, R171, R172, R177). Which rows answer a request of no op, or a COMMAND
of no code, is the model's choice, log entry 8; that the fault test compares counts of requests taken is log entry 12. -/
def Obligations.RefusedRequestChangesNothing : Prop :=
  (∀ (s : State) (i : Fin 4) (q : Taken), (∀ j p, s.context j ≠ .reading p) → s.context i = .waiting q →
    (∀ j p, j ≠ i → s.context j = .waiting p → q.order < p.order) → s.nextExecution = some (i, q)) ∧
  (∀ s : State, ((∃ j p, s.context j = .reading p) ∨ ∀ j p, s.context j ≠ .waiting p) → s.nextExecution = none) ∧
  ∀ (s : State) (i : Fin 4) (q : Taken), s.nextExecution = some (i, q) →
    let r := q.request
    let op := r.op.toNat
    let space := r.space.toNat
    let length := r.octets.length
    let fits := ((op = 1 ∨ op = 4) ∧ length = 12) ∨ (op = 2 ∧ length = 12 + 4 * r.count) ∨ (op = 3 ∧ length = 16)
    let held := (op = 2 ∨ (op = 3 ∧ space ≠ 9)) ∧ s.ep.mode = .stop ∧ ∃ rec, s.ep.fault = some rec ∧ rec.filledAt ≤ q.order
    let coded := op = 3 → 1 ≤ space ∧ space ≤ 13
    let noOp := op = 0 ∨ 5 ≤ op
    let row := fun c : Instr =>
      (c = .read ∧ (op = 1 ∨ noOp)) ∨ (c = .fetch ∧ (op = 4 ∨ noOp)) ∨ (c = .write ∧ (op = 2 ∨ noOp)) ∨
      (∃ x ∈ [(Instr.writeChannelMap, 1), (.writeWatch, 2), (.writeSlot, 3)], c = x.1 ∧ op = 2 ∧ space = x.2) ∨
      (∃ x ∈ [(Instr.writeTimingSet, 6, [2, 3]), (.writeCountTable, 0, [6]), (.writeEnableSet, 5, [8, 9, 10, 11, 12, 13, 14, 15]),
          (.writeOrderList, 5, [17]), (.writeExpressClass, 0, [9]), (.writeCheckMode, 0, [2])],
        c = x.1 ∧ op = 2 ∧ space = x.2.1 ∧ ∃ n ∈ x.2.2, r.index ≤ n ∧ n < r.index + r.count) ∨
      ∃ x ∈ [(Instr.armSlot, 1), (.disarmSlot, 2), (.forceTrigger, 3), (.releaseHalf, 4), (.enableWatch, 5), (.disableWatch, 6),
          (.gate, 7), (.ackNotice, 8), (.clearFault, 9), (.memStart, 10), (.memHold, 11), (.resetCapture, 12), (.realign, 13)],
        c = x.1 ∧ op = 3 ∧ (space = x.2 ∨ ¬ coded)
    (∀ c, row c →
      (¬ fits → answersWith c s s i q .badOp []) ∧ (fits → held → answersWith c s s i q .faulted []) ∧
      (fits → ¬ held → ¬ coded → answersWith c s s i q .badOp [])) ∧
    (fits → ¬ held → coded → s.executesNow i q)

/-- A READ is answered with the words as they stand and changes nothing; its checks are of space, count and index, in that order. Each
word shows the fields of 11.4 in their bits, their values coded as there, and 0 elsewhere (R173, R174, R183, R184). That word 18 of space
5 shows 0 for class and express mark while the notice slot is empty is the model's choice, log entry 28. -/
def Obligations.ReadReturnsTheWordsAsTheyStand : Prop :=
  (∀ (s : State) (i : Fin 4) (q : Taken), s.executesNow i q → q.request.op = opRead →
    let space := q.request.space.toNat
    let index := q.request.index
    let count := q.request.count
    let sizes := [16, 256, 256, 128, 17, 32, 8]
    (7 ≤ space → answersWith .read s s i q .badSpace []) ∧
    (space < 7 → (count < 1 ∨ 16 < count) → answersWith .read s s i q .badValue []) ∧
    (∀ size, sizes[space]? = some size → 1 ≤ count → count ≤ 16 → size < index + count → answersWith .read s s i q .badIndex []) ∧
    (∀ size, sizes[space]? = some size → 1 ≤ count → count ≤ 16 → index + count ≤ size →
      ∃ words, answersWith .read s s i q .ok words ∧ words.length = count ∧
        ∀ k, k < count → words[k]? = some (spaceWord s space (index + k)))) ∧
  (∀ s : State,
    let word := spaceWord s 0
    let portFields := fun (p : Port) (frames : Nat) =>
      [(0, 2, (s.port p).receiver.code), (8, 6, (s.port p).tap.toNat), (16, 8, (s.port p).failures), (24, 4, frames)]
    Shows (word 0) [(16, 16, 0x2C51), (0, 16, 1)] ∧ Shows (word 1) [(0, 6, s.ep.nodeAddress.toNat)] ∧
    Shows (word 2) [(0, 2, s.ep.mode.code)] ∧ (s.ep.fault = none → Shows (word 3) [] ∧ Shows (word 4) []) ∧
    (∀ f, s.ep.fault = some f →
      Shows (word 3) [(31, 1, 1), (16, 8, f.tag.toNat), (8, 4, f.op.toNat), (0, 8, f.code.toNat)] ∧ Shows (word 4) [(0, 8, 1)]) ∧
    Shows (word 5) [(0, 1, s.capture.gateOpen.toNat)] ∧
    Shows (word 6) [(31, 1, s.capture.tableOn.toNat), (0, 24, s.capture.tableBase.toNat)] ∧
    Shows (word 7) [(16, 16, s.notices.dispatchBase.toNat), (0, 4, s.notices.dispatchShift.val)] ∧
    Shows (word 8) [(0, 16, s.notices.holdoff.toNat)] ∧ Shows (word 9) [(0, 4, s.notices.express.elim 8 Fin.val)] ∧
    Shows (word 10) [(0, 32, s.micros.toNat)] ∧ Shows (word 11) [(0, 16, s.capture.counter.toNat)] ∧
    Shows (word 12) (portFields .u s.link.d2u.length) ∧ Shows (word 13) (portFields .d s.link.u2d.length) ∧
    Shows (word 14) [] ∧ Shows (word 15) []) ∧
  (∀ (s : State) (e : Fin 64),
    let x := s.channel e
    let word := fun k => spaceWord s 1 (4 * e.val + k)
    Shows (word 0) [(31, 1, x.valid.toNat), (0, 16, x.sourceId.toNat)] ∧
    Shows (word 1) [(0, 16, x.interval.toNat), (16, 4, x.bound.elim 15 Fin.val)] ∧
    Shows (word 2) [(31, 1, x.sync.code), (0, 8, x.expected.toNat)] ∧ Shows (word 3) [(0, 32, x.lastTimestamp.toNat)]) ∧
  (∀ (s : State) (w : Fin 32),
    let x := s.watch w
    let c := x.config
    let word := fun k => spaceWord s 2 (8 * w.val + k)
    Shows (word 0)
      [(26, 6, c.channel.val), (23, 3, c.target.val), (20, 3, c.kind.code), (17, 1, c.sensitivity.code), (16, 1, c.polarity.code),
        (0, 15, c.hysteresis.toNat)] ∧
    Shows (word 1) [(16, 16, c.thresholdA.toNat), (0, 16, c.thresholdB.toNat)] ∧
    Shows (word 2) [(24, 8, c.qualify), (0, 24, c.windowMin.toNat)] ∧ Shows (word 3) [(0, 32, c.windowMax.toNat)] ∧
    Shows (word 4)
      [(0, 3, x.state.code), (4, 1, x.phase.code), (8, 3, x.lastOutcome.code), (12, 2, x.lastResult.code), (16, 8, x.progress)] ∧
    (∀ d, x.lastResult = .result d → Shows (word 5) [(0, 24, d.toNat)]) ∧
    ((∀ d, x.lastResult ≠ .result d) → Shows (word 5) []) ∧
    Shows (word 6) [(0, 32, x.startTime.toNat)] ∧ Shows (word 7) [(0, 32, x.lastFire.toNat)]) ∧
  (∀ (s : State) (j : Fin 8),
    let x := s.slot j
    let c := x.config
    let l := x.live
    let a := x.recA
    let b := x.recB
    let word := fun k => spaceWord s 3 (16 * j.val + k)
    let last := fun (r : CaptureRecord) => if r.state = .active then l.lastStored else r.lastSampleTime
    Shows (word 0)
      [(0, 15, c.base / 512), (15, 10, c.size / 512), (25, 1, c.retrigger.code), (26, 1, c.full.code), (27, 2, c.pre / 65536),
        (29, 3, c.post / 65536)] ∧
    Shows (word 1) [(0, 16, c.pre), (16, 16, c.post)] ∧
    Shows (word 2)
      [(0, 8, c.early), (8, 6, a.triggerSource), (14, 2, a.state.code), (16, 6, b.triggerSource), (22, 2, b.state.code),
        (24, 1, a.extended.toNat), (25, 1, a.clipped.toNat), (26, 1, a.truncated.toNat), (27, 1, b.extended.toNat),
        (28, 1, b.clipped.toNat), (29, 1, b.truncated.toNat)] ∧
    Shows (word 3)
      [(0, 2, l.state.code), (2, 1, l.earlyRaised.toNat), (3, 1, l.firstPostPending.toNat), (4, 2, l.active.elim 3 Half.number),
        (6, 2, l.writePos / 65536), (8, 3, l.postTarget / 65536), (11, 2, a.start / 65536), (13, 2, a.preCount / 65536),
        (15, 3, a.postCount / 65536), (18, 3, a.filled / 65536), (21, 2, b.start / 65536), (23, 2, b.preCount / 65536),
        (25, 3, b.postCount / 65536), (28, 3, b.filled / 65536)] ∧
    Shows (word 4) [(0, 16, l.writePos), (16, 16, l.postTarget)] ∧
    Shows (word 5) [(0, 16, a.captureNumber.toNat), (16, 16, b.captureNumber.toNat)] ∧
    Shows (word 6) [(0, 16, a.lost), (16, 16, b.lost)] ∧
    Shows (word 7) [(0, 8, a.retriggers), (8, 8, a.gaps), (16, 8, b.retriggers), (24, 8, b.gaps)] ∧
    Shows (word 8) [(0, 16, a.start), (16, 16, a.preCount)] ∧ Shows (word 9) [(0, 16, a.postCount), (16, 16, a.filled)] ∧
    Shows (word 10) [(0, 16, b.start), (16, 16, b.preCount)] ∧ Shows (word 11) [(0, 16, b.postCount), (16, 16, b.filled)] ∧
    Shows (word 12) [(0, 32, a.triggerTime.toNat)] ∧ Shows (word 13) [(0, 32, (last a).toNat)] ∧
    Shows (word 14) [(0, 32, b.triggerTime.toNat)] ∧ Shows (word 15) [(0, 32, (last b).toNat)]) ∧
  (∀ s : State,
    Shows (spaceWord s 4 0) [(0, 5, s.capture.index.length)] ∧
    (∀ n j h, s.capture.index[n]? = some (j, h) → Shows (spaceWord s 4 (n + 1))
      [(31, 1, 1), (24, 3, j.val), (16, 1, h.number), (0, 16, (s.record j h).captureNumber.toNat)]) ∧
    ∀ n, s.capture.index[n]? = none → Shows (spaceWord s 4 (n + 1)) []) ∧
  (∀ s : State,
    let u := s.notices
    let word := spaceWord s 5
    let rest := [(8, 1, u.timer.running.toNat), (12, 1, u.alert.toNat)]
    (∀ c : Fin 8, Shows (word c.val) [(0, 32, u.pending[c].toNat)] ∧ Shows (word (8 + c.val)) [(0, 32, u.enable[c].toNat)]) ∧
    Shows (word 16) ((List.finRange 8).map fun c => (c.val, 1, (u.announcedFlag c).toNat)) ∧
    Shows (word 17) ((List.finRange 8).map fun k => (4 * k.val, 4, u.order[k].val)) ∧
    (u.noticeSlot = none → Shows (word 18) rest) ∧
    (∀ n, u.noticeSlot = some n → Shows (word 18) ([(0, 1, 1), (4, 3, n.cls.val), (7, 1, n.express.toNat)] ++ rest)) ∧
    ∀ n, 19 ≤ n → Shows (word n) []) ∧
  (∀ s : State,
    let word := spaceWord s 6
    let t := s.ctl.written
    Shows (word 0) [(0, 3, s.ctl.state.code), (8, 1, s.ctl.holdRequest.toNat)] ∧ Shows (word 1) [(0, 8, s.queue.length)] ∧
    Shows (word 2) [(0, 16, t.refreshInterval)] ∧
    Shows (word 3) [(0, 4, t.readLatency), (8, 4, t.activateToAccess), (16, 4, t.precharge), (24, 4, t.minRowOpen)] ∧
    ∀ n, 4 ≤ n → Shows (word n) []) ∧
  [CheckMode.stop, .proceed].map CheckMode.code = [0, 1] ∧
  [Receiver.seek, .locked, .up, .failed].map Receiver.code = [0, 1, 2, 3] ∧
  [SyncState.unsynced, .synced].map SyncState.code = [0, 1] ∧
  [WatchKind.above, .below, .bandOut, .rise, .fall, .width, .period].map WatchKind.code = [0, 1, 2, 3, 4, 5, 6] ∧
  [Sensitivity.edge, .level].map Sensitivity.code = [0, 1] ∧ [Polarity.rising, .falling].map Polarity.code = [0, 1] ∧
  [WatchState.off, .unprimed, .clear, .qualifying, .asserted, .measuring].map WatchState.code = [0, 1, 2, 3, 4, 5] ∧
  [EdgePhase.away, .back].map EdgePhase.code = [0, 1] ∧
  [RequestOutcome.none, .taken, .retriggered, .refusedIdle, .refusedStalled, .gated].map RequestOutcome.code = [0, 1, 2, 3, 4, 5] ∧
  LastResult.none.code = 0 ∧ (∀ d, (LastResult.result d).code = 1) ∧ LastResult.overrun.code = 2 ∧
  [RetriggerPolicy.ignore, .extend].map RetriggerPolicy.code = [0, 1] ∧ [FullPolicy.stop, .overwrite].map FullPolicy.code = [0, 1] ∧
  [SlotState.idle, .armed, .post, .stalled].map SlotState.code = [0, 1, 2, 3] ∧
  [HalfState.empty, .active, .sealing, .full].map HalfState.code = [0, 1, 2, 3] ∧ [Half.a, .b].map Half.number = [0, 1] ∧
  [MemState.uninit, .init, .ready, .entering, .hold, .exiting].map MemState.code = [0, 1, 2, 3, 4, 5]

/-- A FETCH within memory, memory started, places its read behind those that wait and leaves its context READING; in HOLD that starts
the exit. Its checks are of count, address and memory, in that order (R112, R126, R171, R176). -/
def Obligations.FetchPlacesItsRead : Prop :=
  ∀ (s : State) (i : Fin 4) (q : Taken), s.executesNow i q → q.request.op = opFetch →
    let count := q.request.count
    let address := q.request.address
    ((count < 1 ∨ 32 < count) → answersWith .fetch s s i q .badValue []) ∧
    (1 ≤ count → count ≤ 32 → 16777216 < address + count → answersWith .fetch s s i q .badIndex []) ∧
    (1 ≤ count → count ≤ 32 → address + count ≤ 16777216 → s.ctl.state = .uninit →
      answersWith .fetch s s i q .notReady []) ∧
    (1 ≤ count → count ≤ 32 → address + count ≤ 16777216 → s.ctl.state ≠ .uninit →
      ∃ t, exec .fetch s = .next t ∧ t.context i = .reading q ∧ (∀ j, j ≠ i → t.context j = s.context j) ∧
        t.ctl.reads = s.ctl.reads ++ [{ address := BitVec.ofNat 24 address, count := count, context := i }] ∧
        (s.ctl.state = .hold → t.ctl.state = .exiting ∧ t.ctl.effect = s.ctl.written ∧
          t.ctl.op = some (.exitSequence (decide (s.ctl.written.readLatency ≠ s.ctl.effect.readLatency)))) ∧
        (s.ctl.state ≠ .hold → t.ctl.state = s.ctl.state ∧ t.ctl.effect = s.ctl.effect) ∧
        { t with ep := s.ep, ctl := s.ctl, queue := s.queue } = s)

/-! ## WRITE requests -/

/-- A WRITE to space 1 is refused with BAD_VALUE, LOCKED or DUPLICATE, in that order, or taken whole: each entry of which it covers a
configuration word takes the values carried and goes to UNSYNCED. A frame being handed on ends there when its entry is one of them (R4 to
R7, R15); that it can be still on its way is the model's choice, log entry 19. -/
def Obligations.ChannelMapWriteIsTakenWholeOrRefused : Prop :=
  ∀ (s : State) (i : Fin 4) (q : Taken), s.runsWrite 1 i q →
    let r := q.request
    let written := fun e : Fin 64 => (r.covered (4 * e.val)).isSome = true ∨ (r.covered (4 * e.val + 1)).isSome = true
    let inRange := ∀ e : Fin 64, (∀ v, r.covered (4 * e.val) = some v → v.toNat % 65536 < 4096) ∧
      ∀ v, r.covered (4 * e.val + 1) = some v →
        v.toNat % 65536 ≠ 0 ∧ (v.toNat / 65536 % 16 < 8 ∨ v.toNat / 65536 % 16 = 15)
    let locked := ∃ e, written e ∧ ((∃ w, (s.watch w).config.channel = e ∧ (s.watch w).state ≠ .off) ∨
      ((s.channel e).valid = true ∧ ∃ j, (s.channel e).bound = some j ∧ (s.slot j).live.state ≠ .idle))
    let after : Fin 64 → MapEntry := fun e =>
      if (r.covered (4 * e.val)).isSome || (r.covered (4 * e.val + 1)).isSome then
        { valid := (r.covered (4 * e.val)).elim (s.channel e).valid fun v => v.getLsbD 31
          sourceId := (r.covered (4 * e.val)).elim (s.channel e).sourceId fun v => v.extractLsb' 0 12
          interval := (r.covered (4 * e.val + 1)).elim (s.channel e).interval fun v => v.extractLsb' 0 16
          bound := (r.covered (4 * e.val + 1)).elim (s.channel e).bound fun v =>
            if h : v.toNat / 65536 % 16 < 8 then some ⟨v.toNat / 65536 % 16, h⟩ else none
          sync := .unsynced, expected := 0, lastTimestamp := 0 }
      else s.channel e
    let duplicates := ∃ e f, e ≠ f ∧ (after e).valid = true ∧ (after f).valid = true ∧
      ((after e).sourceId = (after f).sourceId ∨ ((after e).bound ≠ none ∧ (after e).bound = (after f).bound))
    (¬ inRange → answersWith .writeChannelMap s s i q .badValue []) ∧
    (inRange → locked → answersWith .writeChannelMap s s i q .locked []) ∧
    (inRange → ¬ locked → duplicates → answersWith .writeChannelMap s s i q .duplicate []) ∧
    (inRange → ¬ locked → ¬ duplicates →
      ∃ u, answersWith .writeChannelMap s u i q .ok [] ∧ (∀ e, u.channel e = after e) ∧
        (s.handing = none → u.handing = none) ∧
        (∀ x, s.handing = some x → (written x.entry → u.handing = none) ∧ (¬ written x.entry → u.handing = some x)) ∧
        { u with channels := s.channels, handing := s.handing } = s)

/-- A WRITE to space 2 is refused with BAD_VALUE or LOCKED, in that order, or taken whole: each watch's configuration words then read as
carried where the WRITE covers them and as before elsewhere, live fields and all else unchanged (R20 to R22, R183). -/
def Obligations.WatchWriteIsTakenWholeOrRefused : Prop :=
  ∀ (s : State) (i : Fin 4) (q : Taken), s.runsWrite 2 i q →
    let carries := fun (w : Fin 32) (k : Nat) => q.request.covered (8 * w.val + k)
    let written := fun w : Fin 32 => ∃ k, k < 4 ∧ (carries w k).isSome = true
    let inRange := ∀ w, (∀ v, carries w 0 = some v → v.toNat / 1048576 % 8 ≤ 6) ∧
      (∀ v, carries w 2 = some v → 1 ≤ v.toNat / 16777216) ∧ ∀ v, carries w 3 = some v → v.toNat ≤ 16777215
    let mask := fun k : Nat => if k = 0 then 0xFFF37FFF#32 else 0xFFFFFFFF#32
    let constrained := fun c : WatchConfig => match c.kind with
      | .above => True
      | .below => True
      | .bandOut => c.thresholdB.toInt + c.hysteresis.toNat ≤ c.thresholdA.toInt - c.hysteresis.toNat
      | .rise => c.qualify = 1 ∧ c.sensitivity = .edge
      | .fall => c.qualify = 1 ∧ c.sensitivity = .edge
      | .width => c.qualify = 1 ∧ c.sensitivity = .edge ∧ c.windowMin.toNat ≤ c.windowMax.toNat
      | .period => c.qualify = 1 ∧ c.sensitivity = .edge ∧ c.windowMin.toNat ≤ c.windowMax.toNat
    (¬ inRange → answersWith .writeWatch s s i q .badValue []) ∧
    (inRange → ∃ after : Fin 32 → WatchConfig,
      (∀ w k, k < 4 → ({ s.watch w with config := after w }).word k =
        (carries w k).elim ((s.watch w).word k) fun v => v &&& mask k) ∧
      (∀ w, (after w).qualify = (carries w 2).elim (s.watch w).config.qualify fun v => v.toNat / 16777216) ∧
      ((∃ w, written w ∧ ¬ constrained (after w)) → answersWith .writeWatch s s i q .badValue []) ∧
      ((∀ w, written w → constrained (after w)) → (∃ w, written w ∧ (s.watch w).state ≠ .off) →
        answersWith .writeWatch s s i q .locked []) ∧
      ((∀ w, written w → constrained (after w)) → (∀ w, written w → (s.watch w).state = .off) →
        ∃ u, answersWith .writeWatch s u i q .ok [] ∧ (∀ w, u.watch w = { s.watch w with config := after w }) ∧
          { u with watches := s.watches } = s))

/-- A WRITE to space 3 is refused with BAD_VALUE or LOCKED, in that order, or taken whole: each slot of which it covers a configuration
word takes the values carried, the pre and post lengths put together from both their words (R53 to R55, R184). -/
def Obligations.SlotWriteIsTakenWholeOrRefused : Prop :=
  ∀ (s : State) (i : Fin 4) (q : Taken), s.runsWrite 3 i q →
    let carries := fun (j : Fin 8) (k : Nat) => q.request.covered (16 * j.val + k)
    let written := fun j : Fin 8 => ∃ k, k < 3 ∧ (carries j k).isSome = true
    let after : Fin 8 → SlotConfig := fun j =>
      let c := (s.slot j).config
      { base := (carries j 0).elim c.base fun v => v.toNat % 32768 * 512
        size := (carries j 0).elim c.size fun v => v.toNat / 32768 % 1024 * 512
        pre := (carries j 0).elim (c.pre / 65536) (fun v => v.toNat / 134217728 % 4) * 65536 +
          (carries j 1).elim (c.pre % 65536) fun v => v.toNat % 65536
        post := (carries j 0).elim (c.post / 65536) (fun v => v.toNat / 536870912) * 65536 +
          (carries j 1).elim (c.post % 65536) fun v => v.toNat / 65536
        early := (carries j 2).elim c.early fun v => v.toNat % 256
        retrigger := (carries j 0).elim c.retrigger fun v => if v.getLsbD 25 then .extend else .ignore
        full := (carries j 0).elim c.full fun v => if v.getLsbD 26 then .overwrite else .stop }
    let meets := fun c : SlotConfig => c.base % 512 = 0 ∧ c.base ≤ 16776192 ∧ c.size % 512 = 0 ∧ 512 ≤ c.size ∧ c.size ≤ 262144 ∧
      c.pre < c.size ∧ 1 ≤ c.post ∧ c.pre + c.post ≤ c.size ∧ c.early ≤ 255 ∧ c.early < c.post ∧
      c.base + 2 * c.size ≤ 16777216
    let locked := fun j : Fin 8 => (s.slot j).live.state ≠ .idle ∨ ∃ h, (s.record j h).state = .sealing ∨ (s.record j h).state = .full
    ((∃ j, written j ∧ ¬ meets (after j)) → answersWith .writeSlot s s i q .badValue []) ∧
    ((∀ j, written j → meets (after j)) → (∃ j, written j ∧ locked j) → answersWith .writeSlot s s i q .locked []) ∧
    ((∀ j, written j → meets (after j)) → (∀ j, written j → ¬ locked j) →
      ∃ u, answersWith .writeSlot s u i q .ok [] ∧ (∀ j, u.slot j = { s.slot j with config := after j }) ∧
        { u with slots := s.slots } = s)

/-- A WRITE to the timing set is checked for range, then for the memory state, and changes the written set alone; a WRITE to space 6 that
covers neither timing word is answered OK without effect (R128). That the row WRITE executes such a WRITE too is the model's choice, log
entry 8. -/
def Obligations.TimingSetWriteNeedsUninitOrHold : Prop :=
  ∀ (s : State) (i : Fin 4) (q : Taken), s.runsWrite 6 i q →
    let w2 := q.request.covered 2
    let w3 := q.request.covered 3
    let inRange := (∀ v, w2 = some v → 256 ≤ v.toNat % 65536 ∧ v.toNat % 65536 ≤ 16383) ∧
      ∀ v, w3 = some v → 2 ≤ v.toNat % 16 ∧ v.toNat % 16 ≤ 3 ∧ 1 ≤ v.toNat / 256 % 16 ∧ v.toNat / 256 % 16 ≤ 7 ∧
        1 ≤ v.toNat / 65536 % 16 ∧ v.toNat / 65536 % 16 ≤ 7 ∧ 2 ≤ v.toNat / 16777216 % 16
    let t := s.ctl.written
    let after : TimingSet :=
      { refreshInterval := w2.elim t.refreshInterval fun v => v.toNat % 65536
        readLatency := w3.elim t.readLatency fun v => v.toNat % 16
        activateToAccess := w3.elim t.activateToAccess fun v => v.toNat / 256 % 16
        precharge := w3.elim t.precharge fun v => v.toNat / 65536 % 16
        minRowOpen := w3.elim t.minRowOpen fun v => v.toNat / 16777216 % 16 }
    (w2 = none → w3 = none → answersWith .write s s i q .ok []) ∧
    ∀ c ∈ [Instr.writeTimingSet, .write], (w2 ≠ none ∨ w3 ≠ none) →
      (¬ inRange → answersWith c s s i q .badValue []) ∧
      (inRange → s.ctl.state ≠ .uninit → s.ctl.state ≠ .hold → answersWith c s s i q .notHeld []) ∧
      (inRange → (s.ctl.state = .uninit ∨ s.ctl.state = .hold) →
        answersWith c s { s with ctl := { s.ctl with written := after } } i q .ok [])

/-- A WRITE to space 5 whose order list word is no permutation is refused with BAD_VALUE; any other replaces in one step the enable sets
and order list it carries, keeps pending sets, and a notice is built if R136 then allows (R133, R135, R183). That the row WRITE executes
such a WRITE too is the model's choice, log entry 8. -/
def Obligations.NoticeWriteReplacesSetsAndOrder : Prop :=
  ∀ (s : State) (i : Fin 4) (q : Taken), s.runsWrite 5 i q →
    let word := fun n : Nat => q.request.covered n
    let badOrder := ∃ v, word 17 = some v ∧ ¬ ∀ c : Fin 8, ∃ k : Fin 8, v.toNat / 16 ^ k.val % 16 = c.val
    ∀ c, c = .write ∨ (c = .writeEnableSet ∧ ∃ k : Fin 8, word (8 + k.val) ≠ none) ∨ (c = .writeOrderList ∧ word 17 ≠ none) →
      (badOrder → answersWith c s s i q .badValue []) ∧
      (¬ badOrder → ∃ (u : State) (n : NoticeUnit), answersWith c s u i q .ok [] ∧
        (∀ k : Fin 8, n.enable[k] =
          (word (8 + k.val)).elim s.notices.enable[k] fun v =>
            v &&& if k = classWatchFired then 0xFFFFFFFF else if k = classFault then 0x7 else 0xFF) ∧
        (∀ k : Fin 8, (n.order[k]).val = (word 17).elim s.notices.order[k].val fun v => v.toNat / 16 ^ k.val % 16) ∧
        { n with enable := s.notices.enable, order := s.notices.order } = s.notices ∧
        u.notices = n.built s.ep.nodeAddress s.micros ∧ { u.link with dSending := s.link.dSending } = s.link ∧
        { u with notices := s.notices, link := s.link } = s)

/-- A WRITE to space 0 is refused with BAD_VALUE for any of R179's four causes, or taken whole: check mode, count table and notice
settings take the values carried. Turning the count table on or moving its base marks all 16 words, turning it off discards every mark,
anything else marks nothing (R93, R134, R168, R179). That the row WRITE executes such a WRITE too is the model's choice, log entry 8. -/
def Obligations.ControlWriteChangesItsSettings : Prop :=
  ∀ (s : State) (i : Fin 4) (q : Taken), s.runsWrite 0 i q →
    let word := fun n : Nat => q.request.covered n
    let inRange := (∀ v, word 2 = some v → v.toNat % 4 < 2) ∧ (∀ v, word 6 = some v → v.toNat % 16 = 0) ∧
      (∀ v, word 7 = some v → v.toNat % 16 < 8) ∧ ∀ v, word 9 = some v → v.toNat % 16 ≤ 8
    let on := (word 6).elim s.capture.tableOn fun v => v.getLsbD 31
    let base := (word 6).elim s.capture.tableBase fun v => v.extractLsb' 0 24
    ∀ c, c = .write ∨ (c = .writeCountTable ∧ word 6 ≠ none) ∨ (c = .writeExpressClass ∧ word 9 ≠ none) ∨
        (c = .writeCheckMode ∧ word 2 ≠ none) →
      (¬ inRange → answersWith c s s i q .badValue []) ∧
      (inRange → ∃ (u : State) (n : NoticeUnit), answersWith c s u i q .ok [] ∧
        u.ep = { s.ep with mode := (word 2).elim s.ep.mode fun v => if v.getLsbD 0 then .proceed else .stop } ∧
        u.capture = { s.capture with tableOn := on, tableBase := base } ∧
        n.dispatchBase = (word 7).elim s.notices.dispatchBase (fun v => v.extractLsb' 16 16) ∧
        n.dispatchShift.val = (word 7).elim s.notices.dispatchShift.val (fun v => v.toNat % 16) ∧
        n.holdoff = (word 8).elim s.notices.holdoff (fun v => v.extractLsb' 0 16) ∧
        (word 9 = none → n.express = s.notices.express) ∧
        (∀ v, word 9 = some v → (∀ k, n.express = some k ↔ k.val = v.toNat % 16)) ∧
        { n with
          dispatchBase := s.notices.dispatchBase, dispatchShift := s.notices.dispatchShift, holdoff := s.notices.holdoff,
          express := s.notices.express } = s.notices ∧
        u.notices = n.built s.ep.nodeAddress s.micros ∧ { u.link with dSending := s.link.dSending } = s.link ∧
        (on = true → (s.capture.tableOn = false ∨ base ≠ s.capture.tableBase) → s.ctl.op ≠ none → s.ctl.state ≠ .hold →
          u.queue = s.queue ∧ u.ctl = { s.ctl with dirty := Vector.replicate 16 true }) ∧
        (on = true → (s.capture.tableOn = false ∨ base ≠ s.capture.tableBase) → s.ctl.state = .hold →
          u.ctl.state = .exiting ∧ u.ctl.dirty = Vector.replicate 16 true) ∧
        (on = true → s.capture.tableOn = true → base = s.capture.tableBase → u.queue = s.queue ∧ u.ctl = s.ctl) ∧
        (on = false → s.capture.tableOn = true →
          u.queue = s.queue ∧ u.ctl = { s.ctl with dirty := Vector.replicate 16 false }) ∧
        (on = false → s.capture.tableOn = false → u.queue = s.queue ∧ u.ctl = s.ctl) ∧
        { u with
          ep := s.ep, capture := s.capture, notices := s.notices, ctl := s.ctl, queue := s.queue, link := s.link } = s)

/-! ## Commands -/

/-- ARM-SLOT: its checks in order; accepted, it withdraws the hold request and the slot takes half A, half B, under OVERWRITE its older
FULL half, or goes to STALLED. A memory in HOLD stays there (R58 to R60, R73, R95, R124, R125); that the half's count word is marked and
waits is the model's choice, log entry 27. -/
def Obligations.ArmSlotTakesAHalf : Prop :=
  ∀ (s : State) (i : Fin 4) (q : Taken), s.runsCommand 1 i q →
    let arg := q.request.argument.toNat % 256
    (8 ≤ arg → answersWith .armSlot s s i q .badValue []) ∧
    ∀ j : Fin 8, j.val = arg →
      let x := s.slot j
      let bound := ∃ e, (s.channel e).valid = true ∧ (s.channel e).bound = some j
      let overlap := fun base length : Nat => x.config.base < base + length ∧ base < x.config.base + 2 * x.config.size
      let inUse := fun k : Fin 8 => (s.slot k).live.state ≠ .idle ∨ ∃ h, (s.record k h).state = .sealing ∨ (s.record k h).state = .full
      let overlaps := (∃ k, k ≠ j ∧ inUse k ∧ overlap (s.slot k).config.base (2 * (s.slot k).config.size)) ∨
        (s.capture.tableOn = true ∧ overlap s.capture.tableBase.toNat 16)
      let takes := fun (u : State) (h : Half) =>
        u.slot j = { x.setRecord h (CaptureRecord.cleared .active) with live := { SlotLive.cleared .armed with active := some h } }
      (x.live.state ≠ .idle → answersWith .armSlot s s i q .wrongState []) ∧
      (x.live.state = .idle → ¬ bound → answersWith .armSlot s s i q .badValue []) ∧
      (x.live.state = .idle → bound → s.ctl.state = .uninit → answersWith .armSlot s s i q .notReady []) ∧
      (x.live.state = .idle → bound → s.ctl.state ≠ .uninit → overlaps → answersWith .armSlot s s i q .badValue []) ∧
      (x.live.state = .idle → bound → s.ctl.state ≠ .uninit → ¬ overlaps →
        ∃ u, answersWith .armSlot s u i q .ok [] ∧
          u.ctl.holdRequest = false ∧ (s.ctl.state = .entering → u.ctl.state = .ready) ∧
          (s.ctl.state ≠ .entering → u.ctl.state = s.ctl.state) ∧
          (s.ctl.state = .hold → u.queue = s.queue ∧ { u.ctl with holdRequest := s.ctl.holdRequest, dirty := s.ctl.dirty } = s.ctl ∧
            (∀ h, (u.slot j).live.active = some h → s.capture.tableOn = true →
              u.ctl.dirty = s.ctl.dirty.set (countWordOf j h) true) ∧
            (((u.slot j).live.active = none ∨ s.capture.tableOn = false) → u.ctl.dirty = s.ctl.dirty)) ∧
          (x.recA.state = .empty → takes u .a ∧ u.notices = s.notices ∧ u.capture = s.capture) ∧
          (x.recA.state ≠ .empty → x.recB.state = .empty → takes u .b ∧ u.notices = s.notices ∧ u.capture = s.capture) ∧
          (x.recA.state ≠ .empty → x.recB.state ≠ .empty → x.config.full = .stop →
            u.slot j = { x with live := SlotLive.cleared .stalled } ∧ u.notices = s.notices ∧ u.capture = s.capture) ∧
          (x.recA.state ≠ .empty → x.recB.state ≠ .empty → x.config.full = .overwrite →
            (∀ before h after, s.capture.index = before ++ (j, h) :: after → (∀ e ∈ before, e.1 ≠ j) →
              takes u h ∧ u.capture = { s.capture with index := s.capture.index.filter fun e => decide (e ≠ (j, h)) } ∧
              u.notices.pending[classOverwritten].getLsbD j.val = true) ∧
            ((∀ e ∈ s.capture.index, e.1 ≠ j) → u.slot j = { x with live := SlotLive.cleared .stalled })) ∧
          (∀ k, k ≠ j → u.slot k = s.slot k) ∧ { u.link with dSending := s.link.dSending } = s.link ∧
          { u with
            slots := s.slots, capture := s.capture, ctl := s.ctl, queue := s.queue, notices := s.notices, link := s.link } = s)

/-- DISARM-SLOT: WRONG_STATE in IDLE; from ARMED the half goes back to EMPTY, from POST it seals TRUNCATED, and becomes FULL at once when
nothing of it waits to be written; the slot is IDLE after (R72, R75, R83, R84). -/
def Obligations.DisarmSlotEmptiesOrTruncates : Prop :=
  ∀ (s : State) (i : Fin 4) (q : Taken), s.runsCommand 2 i q →
    let arg := q.request.argument.toNat % 256
    (8 ≤ arg → answersWith .disarmSlot s s i q .badValue []) ∧
    ∀ j : Fin 8, j.val = arg →
      let x := s.slot j
      (x.live.state = .idle → answersWith .disarmSlot s s i q .wrongState []) ∧
      (x.live.state = .stalled →
        answersWith .disarmSlot s (s.setSlot j { x with live := SlotLive.cleared .idle }) i q .ok []) ∧
      (∀ h, x.live.state = .armed → x.live.active = some h →
        ∃ u, answersWith .disarmSlot s u i q .ok [] ∧
          u.slots =
            (s.setSlot j { x.setRecord h (CaptureRecord.cleared .empty) with live := SlotLive.cleared .idle }).slots ∧
          (s.capture.tableOn = false → u.ctl = s.ctl ∧ u.queue = s.queue) ∧
          { u with slots := s.slots, ctl := s.ctl, queue := s.queue } = s) ∧
      (∀ h, x.live.state = .post → x.live.active = some h →
        let r := x.record h
        let waits := (∃ e ∈ s.queue, e.slot = j ∧ e.half = h) ∨
          ∃ entries, s.ctl.op = some (.burst entries) ∧ ∃ e ∈ entries, e.slot = j ∧ e.half = h
        ∃ u, answersWith .disarmSlot s u i q .ok [] ∧ (u.slot j).live = SlotLive.cleared .idle ∧
          (∀ k, k ≠ j → u.slot k = s.slot k) ∧ (u.record j h).truncated = true ∧
          (u.record j h).lastSampleTime = x.live.lastStored ∧ (u.record j h).postCount = r.postCount ∧
          (u.record j h).preCount = r.preCount ∧ (u.record j h).filled = r.filled ∧
          (x.live.firstPostPending = false → (u.record j h).start = r.start) ∧
          (x.live.firstPostPending = true → x.live.writePos < x.config.size → r.preCount ≤ x.config.size →
            ((u.record j h).start + r.preCount) % x.config.size = x.live.writePos ∧ (u.record j h).start < x.config.size) ∧
          u.record j h.other = s.record j h.other ∧
          (waits → (u.record j h).state = .sealing ∧ u.capture = s.capture ∧ u.notices = s.notices) ∧
          (¬ waits → (u.record j h).state = .full ∧ (u.record j h).captureNumber = s.capture.counter ∧
            u.capture = { s.capture with counter := s.capture.counter + 1, index := s.capture.index ++ [(j, h)] } ∧
            u.notices.pending[classCaptureDone].getLsbD j.val = true) ∧
          u.queue = s.queue ∧ u.ctl = s.ctl ∧ { u.link with dSending := s.link.dSending } = s.link ∧
          { u with slots := s.slots, capture := s.capture, notices := s.notices, link := s.link } = s)

/-- RELEASE-HALF of a FULL half takes its entry from the index and empties it; a STALLED slot arms on it at once. Of any other half it is
refused with WRONG_STATE (R87, R89, R90). -/
def Obligations.ReleaseHalfEmptiesOrRearms : Prop :=
  ∀ (s : State) (i : Fin 4) (q : Taken), s.runsCommand 4 i q →
    let arg := q.request.argument.toNat
    ((8 ≤ arg % 256 ∨ 2 ≤ arg / 256 % 256) → answersWith .releaseHalf s s i q .badValue []) ∧
    ∀ (j : Fin 8) (h : Half), j.val = arg % 256 → h.number = arg / 256 % 256 →
      let x := s.slot j
      ((x.record h).state ≠ .full → answersWith .releaseHalf s s i q .wrongState []) ∧
      ((x.record h).state = .full →
        ∃ u, answersWith .releaseHalf s u i q .ok [] ∧
          u.capture = { s.capture with index := s.capture.index.filter fun e => decide (e ≠ (j, h)) } ∧
          (x.live.state ≠ .stalled → u.slots = (s.setSlot j (x.setRecord h (CaptureRecord.cleared .empty))).slots) ∧
          (x.live.state = .stalled →
            u.slots = (s.setSlot j { x.setRecord h (CaptureRecord.cleared .active) with
              live := { SlotLive.cleared .armed with active := some h } }).slots) ∧
          (s.capture.tableOn = false → u.ctl = s.ctl ∧ u.queue = s.queue) ∧
          (s.capture.tableOn = true → s.ctl.op ≠ none → s.ctl.state ≠ .hold →
            u.queue = s.queue ∧ u.ctl = { s.ctl with dirty := s.ctl.dirty.set (countWordOf j h) true }) ∧
          { u with slots := s.slots, capture := s.capture, ctl := s.ctl, queue := s.queue } = s)

/-- ENABLE-WATCH puts an OFF watch whose entry is valid in its start state; DISABLE-WATCH puts any watch in OFF. Neither changes anything
else (R30, R34, R35). -/
def Obligations.WatchIsEnabledAndDisabled : Prop :=
  ∀ (s : State) (i : Fin 4) (q : Taken),
    let arg := q.request.argument.toNat % 256
    (s.runsCommand 5 i q → 32 ≤ arg → answersWith .enableWatch s s i q .badValue []) ∧
    (s.runsCommand 6 i q → 32 ≤ arg → answersWith .disableWatch s s i q .badValue []) ∧
    ∀ w : Fin 32, w.val = arg →
      let x := s.watch w
      let entry := s.channel x.config.channel
      (s.runsCommand 5 i q → x.state ≠ .off → answersWith .enableWatch s s i q .wrongState []) ∧
      (s.runsCommand 5 i q → x.state = .off → entry.valid = false → answersWith .enableWatch s s i q .badValue []) ∧
      (s.runsCommand 5 i q → x.state = .off → entry.valid = true →
        answersWith .enableWatch s
          (s.setWatch w { x with
            state := match x.config.kind, x.config.sensitivity with
              | .above, .level => .clear
              | .below, .level => .clear
              | .bandOut, .level => .clear
              | _, _ => .unprimed
            progress := 0, startTime := 0, phase := .away }) i q .ok []) ∧
      (s.runsCommand 6 i q →
        answersWith .disableWatch s (s.setWatch w { x with state := .off, progress := 0, startTime := 0, phase := .away }) i q
          .ok [])

/-- GATE sets the trigger gate, CLEAR-FAULT empties the fault record, MEM-START begins the initialisation of an UNINIT memory, MEM-HOLD
sets the hold request of a READY memory with no slot recording and is answered OK in ENTERING and HOLD (R76, R119, R121, R167). -/
def Obligations.GateFaultAndMemoryCommandsAct : Prop :=
  ∀ (s : State) (i : Fin 4) (q : Taken),
    let arg := q.request.argument.toNat % 256
    (s.runsCommand 7 i q →
      (arg = 0 → answersWith .gate s { s with capture := { s.capture with gateOpen := false } } i q .ok []) ∧
      (arg = 1 → answersWith .gate s { s with capture := { s.capture with gateOpen := true } } i q .ok []) ∧
      (2 ≤ arg → answersWith .gate s s i q .badValue [])) ∧
    (s.runsCommand 9 i q → answersWith .clearFault s { s with ep := { s.ep with fault := none } } i q .ok []) ∧
    (s.runsCommand 10 i q →
      (s.ctl.state = .uninit → answersWith .memStart s
        { s with ctl := { s.ctl with state := .init, effect := s.ctl.written, op := some .initSequence } } i q .ok []) ∧
      (s.ctl.state ≠ .uninit → answersWith .memStart s s i q .wrongState [])) ∧
    (s.runsCommand 11 i q →
      let recording := ∃ j, (s.slot j).live.state = .armed ∨ (s.slot j).live.state = .post
      ((s.ctl.state = .uninit ∨ s.ctl.state = .init ∨ s.ctl.state = .exiting) → answersWith .memHold s s i q .wrongState []) ∧
      ((s.ctl.state = .entering ∨ s.ctl.state = .hold) → answersWith .memHold s s i q .ok []) ∧
      (s.ctl.state = .ready → recording → answersWith .memHold s s i q .wrongState []) ∧
      (s.ctl.state = .ready → ¬ recording → answersWith .memHold s
        (chooseMem { s with ctl := { s.ctl with holdRequest := true, state := .entering } }) i q .ok []))

/-- ACK-NOTICE takes the named sources from their class's pending set and clears its announced flag; a notice is built if R136 then
allows. A class above 7 or a group beyond HIGH is answered BAD_VALUE (R142). -/
def Obligations.AckNoticeTakesTheNamedSources : Prop :=
  ∀ (s : State) (i : Fin 4) (q : Taken), s.runsCommand 8 i q →
    let arg := q.request.argument.toNat
    ((8 ≤ arg / 65536 % 256 ∨ 2 ≤ arg / 16777216) → answersWith .ackNotice s s i q .badValue []) ∧
    ∀ (c : Fin 8) (group : Nat), c.val = arg / 65536 % 256 → group = arg / 16777216 → group < 2 →
      ∃ (u : State) (pending : BitVec 32) (announced : BitVec 8), answersWith .ackNotice s u i q .ok [] ∧
        (∀ n : Fin 32, pending.getLsbD n.val =
          (s.notices.pending[c].getLsbD n.val &&
            !(decide (n.val / 16 = group) && q.request.argument.getLsbD (n.val % 16)))) ∧
        (∀ k : Fin 8, announced.getLsbD k.val = (s.notices.announced.getLsbD k.val && decide (k ≠ c))) ∧
        u.notices =
          ({ s.notices with pending := s.notices.pending.set c pending, announced := announced }).built s.ep.nodeAddress
            s.micros ∧
        { u.link with dSending := s.link.dSending } = s.link ∧ { u with notices := s.notices, link := s.link } = s

/-- RESET-CAPTURE in one step: map entries UNSYNCED, watches OFF, slots IDLE with EMPTY halves, gate OPEN, index and write queue empty, the
classes of the capture side cleared; configurations, capture counter, count table settings, memory, ports and endpoint stay. With the
count table on every count word is marked, which in HOLD starts the exit (R2, R18, R77, R98, R103, R117, R146, R178). -/
def Obligations.ResetCaptureClearsTheCaptureSide : Prop :=
  ∀ (s : State) (i : Fin 4) (q : Taken), s.runsCommand 12 i q →
    ∃ u, answersWith .resetCapture s u i q .ok [] ∧
      (∀ e, u.channel e = { s.channel e with sync := .unsynced, expected := 0, lastTimestamp := 0 }) ∧
      (∀ w, u.watch w = { s.watch w with state := .off, progress := 0, startTime := 0, phase := .away }) ∧
      (∀ j, (u.slot j).config = (s.slot j).config ∧ (u.slot j).live = SlotLive.cleared .idle ∧
        ∀ h, u.record j h = CaptureRecord.cleared .empty) ∧
      u.capture = { s.capture with gateOpen := true, index := [] } ∧ u.queue = [] ∧ CaptureClassesCleared s u ∧
      { u.notices with
        pending := s.notices.pending, announced := s.notices.announced, noticeSlot := s.notices.noticeSlot } = s.notices ∧
      (∀ n, u.notices.noticeSlot = some n → 6 ≤ n.cls.val ∨ ∃ f, s.link.dSending = some ⟨.notice, f⟩) ∧
      (∀ f n, s.link.dSending = some ⟨.notice, f⟩ → s.notices.noticeSlot = some n → u.notices.noticeSlot = some n) ∧
      (s.capture.tableOn = false → u.ctl = s.ctl) ∧
      (s.capture.tableOn = true → s.ctl.op ≠ none → s.ctl.state ≠ .hold →
        u.ctl = { s.ctl with dirty := Vector.replicate 16 true }) ∧
      (s.capture.tableOn = true → s.ctl.state = .hold →
        u.ctl.state = .exiting ∧ u.ctl.dirty = Vector.replicate 16 true) ∧
      { u.link with dSending := s.link.dSending } = s.link ∧
      { u with
        channels := s.channels, watches := s.watches, slots := s.slots, capture := s.capture, queue := s.queue,
        notices := s.notices, ctl := s.ctl, link := s.link } = s

/-! ## Ends of operations -/

/-- At a burst's end its values stand at its entries' addresses and every other word as before; its half, if SEALING with none of its
entries left in the queue, becomes FULL: numbered, listed last, CAPTURE-DONE raised, and reclaimed by a slot STALLED under OVERWRITE; the
half's count word is marked; the port is then free, each bank keeps the last row touched, and the arbiter makes its choice (R74, R83, R84,
R95, R102, R105, R107). In HOLD no burst is on the port (StepKeepsMemoryStates). -/
def Obligations.BurstEndWritesItsWordsAndMayFillItsHalf : Prop :=
  ∀ (s : State) (e : QueueEntry) (rest : List QueueEntry), s.ctl.op = some (.burst (e :: rest)) →
    let x := s.slot e.slot
    let fills := (x.record e.half).state = .sealing ∧ ∀ f ∈ s.queue, ¬ (f.slot = e.slot ∧ f.half = e.half)
    let reclaims := x.live.state = .stalled ∧ x.config.full = .overwrite
    ∃ t, exec .burstEnd s = .next t ∧
      (∀ before f after, e :: rest = before ++ f :: after → (∀ g ∈ after, g.address ≠ f.address) →
        t.mem.read f.address = some f.value) ∧
      (∀ a, (∀ f ∈ e :: rest, f.address ≠ a) → t.mem.read a = s.mem.read a) ∧
      (∀ k, k ≠ e.slot → t.slot k = s.slot k) ∧ t.record e.slot e.half.other = s.record e.slot e.half.other ∧
      (fills → t.notices.pending[classCaptureDone].getLsbD e.slot.val = true ∧
        (¬ reclaims →
          t.record e.slot e.half = { x.record e.half with state := .full, captureNumber := s.capture.counter } ∧
          (t.slot e.slot).live = x.live ∧
          t.capture =
            { s.capture with counter := s.capture.counter + 1, index := s.capture.index ++ [(e.slot, e.half)] }) ∧
        (reclaims →
          t.record e.slot e.half = CaptureRecord.cleared .active ∧
          (t.slot e.slot).live = { SlotLive.cleared .armed with active := some e.half } ∧
          t.capture.counter = s.capture.counter + 1 ∧
          t.notices.pending[classOverwritten].getLsbD e.slot.val = true)) ∧
      (¬ fills → t.slots = s.slots ∧ t.capture = s.capture ∧ t.notices = s.notices) ∧
      (s.capture.tableOn = true → t.ctl.dirty[countWordOf e.slot e.half] = true ∨
        ∃ a v, t.ctl.op = some (.countWrite (countWordOf e.slot e.half) a v)) ∧
      (s.ctl.state ≠ .hold → ∃ u : State, t = chooseMem u ∧ u.queue = s.queue ∧
        u.ctl = { s.ctl with
          op := none, banks := u.ctl.banks
          dirty := if s.capture.tableOn = true then s.ctl.dirty.set (countWordOf e.slot e.half) true else s.ctl.dirty } ∧
        (∀ before f after, e :: rest = before ++ f :: after → (∀ g ∈ after, bankOf g.address ≠ bankOf f.address) →
          u.ctl.banks[bankOf f.address] = some (rowOf f.address)) ∧
        (∀ b, (∀ f ∈ e :: rest, bankOf f.address ≠ b) → u.ctl.banks[b] = s.ctl.banks[b])) ∧
      { t.link with dSending := s.link.dSending } = s.link ∧
      { t with
        slots := s.slots, capture := s.capture, queue := s.queue, mem := s.mem, ctl := s.ctl, notices := s.notices,
        link := s.link } = s

/-- The other ends at the memory port: a refresh that falls due and one that ends, a FETCH read answered with its words packed in pairs,
a count-table write, the initialisation, closing and exit sequences. Each frees the port and leaves the arbiter its choice, the closing
operation only when the memory does not enter HOLD (R105, R107, R110, R113 to R115, R120, R123, R127). That a refresh due again at a
refresh's end stays due is the model's choice, log entry 13; that words and rows change at an operation's end is log entry 15. -/
def Obligations.MemoryOperationsEndAsTheirRulesSay : Prop :=
  ∀ s : State,
    let c := s.ctl
    let closed : Vector (Option Nat) 4 := Vector.replicate 4 none
    let loaded : RefreshTimer := ⟨true, c.effect.refreshInterval⟩
    (c.timer.running = true →
      exec .refreshDue s = .next (chooseMem { s with ctl := { c with refreshDue := true, timer := loaded } })) ∧
    (c.op = some .refresh → exec .refreshEnd s = .next (chooseMem { s with ctl := { c with op := none, banks := closed } })) ∧
    (∀ r later q, c.op = some .fetchRead → c.reads = r :: later → s.context r.context = .reading q →
      ∃ (u : State) (words : List MemWord) (packed : List MgmtWord), exec .fetchReadEnd s = .next (chooseMem u) ∧
        words.length = r.count ∧
        (∀ k v, k < r.count → s.mem.read (r.address + BitVec.ofNat 24 k) = some v → words[k]? = some v) ∧
        packed.length = (r.count + 1) / 2 ∧
        (∀ k lo hi, words[2 * k]? = some lo → words[2 * k + 1]? = some hi → packed[k]? = some (hi ++ lo)) ∧
        (∀ k lo, words[2 * k]? = some lo → words[2 * k + 1]? = none → packed[k]? = some (lo.zeroExtend 32)) ∧
        u.ep = { s.ep with contexts := s.ep.contexts.set r.context (.answering q ⟨q.request.tag, .ok, packed⟩) } ∧
        u.ctl = { c with op := none, reads := later, banks := u.ctl.banks } ∧
        (∀ k, k < r.count →
          (∀ l, k < l → l < r.count → bankOf (r.address + BitVec.ofNat 24 l) ≠ bankOf (r.address + BitVec.ofNat 24 k)) →
          u.ctl.banks[bankOf (r.address + BitVec.ofNat 24 k)] = some (rowOf (r.address + BitVec.ofNat 24 k))) ∧
        (∀ b, (∀ k, k < r.count → bankOf (r.address + BitVec.ofNat 24 k) ≠ b) → u.ctl.banks[b] = c.banks[b]) ∧
        { u.link with dSending := s.link.dSending } = s.link ∧
        (s.link.dSending = none → s.dPort.receiver = .up → u.link.dSending = u.dCandidate) ∧
        ((s.link.dSending ≠ none ∨ s.dPort.receiver ≠ .up) → u.link = s.link) ∧
        { u with ep := s.ep, ctl := c, link := s.link, free := s.free } = s) ∧
    (∀ w a v, c.op = some (.countWrite w a v) →
      ∃ mem : Memory, exec .countTableWriteEnd s =
          .next (chooseMem { s with
            mem := mem, ctl := { c with op := none, banks := c.banks.set (bankOf a) (some (rowOf a)) } }) ∧
        mem.read a = some v ∧ ∀ b, b ≠ a → mem.read b = s.mem.read b) ∧
    (c.op = some .initSequence →
      ∃ u, exec .initSequenceEnd s = .next (chooseMem u) ∧
        RaisedOnly classState 7 { s with ctl := { c with state := .ready, op := none, banks := closed, timer := loaded } } u) ∧
    (c.op = some .closing →
      let holds := c.holdRequest = true ∧ c.refreshDue = false ∧ s.queue = [] ∧ c.reads = [] ∧ ∀ w : Fin 16, c.dirty[w] = false
      (holds → exec .closingOperationEnd s =
        .next { s with ctl :=
          { c with state := .hold, op := none, banks := closed, timer := { c.timer with running := false } } }) ∧
      (¬ holds →
        exec .closingOperationEnd s = .next (chooseMem { s with ctl := { c with op := none, banks := closed } }))) ∧
    (∀ m, c.op = some (.exitSequence m) →
      exec .exitSequenceEnd s = .next (chooseMem { s with ctl := { c with
        state := if c.holdRequest then .entering else .ready, op := none, banks := closed, timer := loaded } }))

/-- A frame whose END is sent frees what held it, and the transmitter begins its next choice if its receiver is UP; a notice leaving
starts the holdoff timer, with a setting of 0 it expires as it starts (R140, R141, R159 to R162, R169, R170). That a notice is built before
the arbiter chooses is the model's choice, log entry 10. -/
def Obligations.SentFrameFreesItsHolder : Prop :=
  (∀ (s : State) (x : DSending), s.link.dSending = some x →
    let u := s.notices
    let timer : HoldoffTimer := if u.holdoff = 0 then ⟨false, 0⟩ else ⟨true, u.holdoff.toNat⟩
    ∃ t, exec .dFrameSent s = .next t ∧
      (s.dPort.receiver = .up → t.link.dSending = t.dCandidate) ∧ (s.dPort.receiver ≠ .up → t.link.dSending = none) ∧
      t.link.d2u = s.link.d2u ∧ t.link.uSending = s.link.uSending ∧
      t.link.u2d = (if x.holder = .forward then s.link.u2d.tail else s.link.u2d) ∧
      t.notices =
        (if x.holder = .notice then { u with noticeSlot := none, timer := timer } else u).built s.ep.nodeAddress s.micros ∧
      (x.holder = .busy → t.ep = { s.ep with refusal := none }) ∧
      (∀ k, x.holder = .context k →
        t.context k = .free ∧ (∀ j, j ≠ k → t.context j = s.context j) ∧ { t.ep with contexts := s.ep.contexts } = s.ep) ∧
      ((x.holder = .forward ∨ x.holder = .notice) → t.ep = s.ep) ∧
      { t with notices := s.notices, link := s.link, ep := s.ep } = s) ∧
  ∀ (s : State) (f : Frame), s.link.uSending = some f →
    ∃ t, exec .uFrameSent s = .next t ∧ t.link.d2u = s.link.d2u.tail ∧
      t.link.uSending = (if s.uPort.receiver = .up then s.link.d2u.tail.head? else none) ∧
      t.link.u2d = s.link.u2d ∧ t.link.dSending = s.link.dSending ∧ { t with link := s.link } = s

end Slice0
end

