-- ==== Sys2Proof/Laws/State.lean ====
section
/-! SUPPORT. Field lemmas for the updates of State: what each update leaves unchanged, and what a read of the updated place gives. -/

namespace Sys2Proof.Machine

/-! ## setChannel -/

@[simp] theorem setChannel_handing (s : State) (e : Fin 64) (x : MapEntry) : (s.setChannel e x).handing = s.handing := rfl
@[simp] theorem setChannel_watches (s : State) (e : Fin 64) (x : MapEntry) : (s.setChannel e x).watches = s.watches := rfl
@[simp] theorem setChannel_slots (s : State) (e : Fin 64) (x : MapEntry) : (s.setChannel e x).slots = s.slots := rfl
@[simp] theorem setChannel_capture (s : State) (e : Fin 64) (x : MapEntry) : (s.setChannel e x).capture = s.capture := rfl
@[simp] theorem setChannel_queue (s : State) (e : Fin 64) (x : MapEntry) : (s.setChannel e x).queue = s.queue := rfl
@[simp] theorem setChannel_mem (s : State) (e : Fin 64) (x : MapEntry) : (s.setChannel e x).mem = s.mem := rfl
@[simp] theorem setChannel_ctl (s : State) (e : Fin 64) (x : MapEntry) : (s.setChannel e x).ctl = s.ctl := rfl
@[simp] theorem setChannel_notices (s : State) (e : Fin 64) (x : MapEntry) : (s.setChannel e x).notices = s.notices := rfl
@[simp] theorem setChannel_uPort (s : State) (e : Fin 64) (x : MapEntry) : (s.setChannel e x).uPort = s.uPort := rfl
@[simp] theorem setChannel_dPort (s : State) (e : Fin 64) (x : MapEntry) : (s.setChannel e x).dPort = s.dPort := rfl
@[simp] theorem setChannel_link (s : State) (e : Fin 64) (x : MapEntry) : (s.setChannel e x).link = s.link := rfl
@[simp] theorem setChannel_ep (s : State) (e : Fin 64) (x : MapEntry) : (s.setChannel e x).ep = s.ep := rfl
@[simp] theorem setChannel_micros (s : State) (e : Fin 64) (x : MapEntry) : (s.setChannel e x).micros = s.micros := rfl
@[simp] theorem setChannel_free (s : State) (e : Fin 64) (x : MapEntry) : (s.setChannel e x).free = s.free := rfl
@[simp] theorem setChannel_pending (s : State) (e : Fin 64) (x : MapEntry) : (s.setChannel e x).pending = s.pending := rfl

/-! ## setWatch -/

@[simp] theorem setWatch_channels (s : State) (w : Fin 32) (x : Watch) : (s.setWatch w x).channels = s.channels := rfl
@[simp] theorem setWatch_handing (s : State) (w : Fin 32) (x : Watch) : (s.setWatch w x).handing = s.handing := rfl
@[simp] theorem setWatch_slots (s : State) (w : Fin 32) (x : Watch) : (s.setWatch w x).slots = s.slots := rfl
@[simp] theorem setWatch_capture (s : State) (w : Fin 32) (x : Watch) : (s.setWatch w x).capture = s.capture := rfl
@[simp] theorem setWatch_queue (s : State) (w : Fin 32) (x : Watch) : (s.setWatch w x).queue = s.queue := rfl
@[simp] theorem setWatch_mem (s : State) (w : Fin 32) (x : Watch) : (s.setWatch w x).mem = s.mem := rfl
@[simp] theorem setWatch_ctl (s : State) (w : Fin 32) (x : Watch) : (s.setWatch w x).ctl = s.ctl := rfl
@[simp] theorem setWatch_notices (s : State) (w : Fin 32) (x : Watch) : (s.setWatch w x).notices = s.notices := rfl
@[simp] theorem setWatch_uPort (s : State) (w : Fin 32) (x : Watch) : (s.setWatch w x).uPort = s.uPort := rfl
@[simp] theorem setWatch_dPort (s : State) (w : Fin 32) (x : Watch) : (s.setWatch w x).dPort = s.dPort := rfl
@[simp] theorem setWatch_link (s : State) (w : Fin 32) (x : Watch) : (s.setWatch w x).link = s.link := rfl
@[simp] theorem setWatch_ep (s : State) (w : Fin 32) (x : Watch) : (s.setWatch w x).ep = s.ep := rfl
@[simp] theorem setWatch_micros (s : State) (w : Fin 32) (x : Watch) : (s.setWatch w x).micros = s.micros := rfl
@[simp] theorem setWatch_free (s : State) (w : Fin 32) (x : Watch) : (s.setWatch w x).free = s.free := rfl
@[simp] theorem setWatch_pending (s : State) (w : Fin 32) (x : Watch) : (s.setWatch w x).pending = s.pending := rfl

/-! ## setSlot -/

@[simp] theorem setSlot_channels (s : State) (i : Fin 8) (x : Slot) : (s.setSlot i x).channels = s.channels := rfl
@[simp] theorem setSlot_handing (s : State) (i : Fin 8) (x : Slot) : (s.setSlot i x).handing = s.handing := rfl
@[simp] theorem setSlot_watches (s : State) (i : Fin 8) (x : Slot) : (s.setSlot i x).watches = s.watches := rfl
@[simp] theorem setSlot_capture (s : State) (i : Fin 8) (x : Slot) : (s.setSlot i x).capture = s.capture := rfl
@[simp] theorem setSlot_queue (s : State) (i : Fin 8) (x : Slot) : (s.setSlot i x).queue = s.queue := rfl
@[simp] theorem setSlot_mem (s : State) (i : Fin 8) (x : Slot) : (s.setSlot i x).mem = s.mem := rfl
@[simp] theorem setSlot_ctl (s : State) (i : Fin 8) (x : Slot) : (s.setSlot i x).ctl = s.ctl := rfl
@[simp] theorem setSlot_notices (s : State) (i : Fin 8) (x : Slot) : (s.setSlot i x).notices = s.notices := rfl
@[simp] theorem setSlot_uPort (s : State) (i : Fin 8) (x : Slot) : (s.setSlot i x).uPort = s.uPort := rfl
@[simp] theorem setSlot_dPort (s : State) (i : Fin 8) (x : Slot) : (s.setSlot i x).dPort = s.dPort := rfl
@[simp] theorem setSlot_link (s : State) (i : Fin 8) (x : Slot) : (s.setSlot i x).link = s.link := rfl
@[simp] theorem setSlot_ep (s : State) (i : Fin 8) (x : Slot) : (s.setSlot i x).ep = s.ep := rfl
@[simp] theorem setSlot_micros (s : State) (i : Fin 8) (x : Slot) : (s.setSlot i x).micros = s.micros := rfl
@[simp] theorem setSlot_free (s : State) (i : Fin 8) (x : Slot) : (s.setSlot i x).free = s.free := rfl
@[simp] theorem setSlot_pending (s : State) (i : Fin 8) (x : Slot) : (s.setSlot i x).pending = s.pending := rfl

/-! ## setRecord -/

@[simp] theorem setRecord_channels (s : State) (i : Fin 8) (h : Half) (r : CaptureRecord) : (s.setRecord i h r).channels = s.channels := rfl
@[simp] theorem setRecord_handing (s : State) (i : Fin 8) (h : Half) (r : CaptureRecord) : (s.setRecord i h r).handing = s.handing := rfl
@[simp] theorem setRecord_watches (s : State) (i : Fin 8) (h : Half) (r : CaptureRecord) : (s.setRecord i h r).watches = s.watches := rfl
@[simp] theorem setRecord_capture (s : State) (i : Fin 8) (h : Half) (r : CaptureRecord) : (s.setRecord i h r).capture = s.capture := rfl
@[simp] theorem setRecord_queue (s : State) (i : Fin 8) (h : Half) (r : CaptureRecord) : (s.setRecord i h r).queue = s.queue := rfl
@[simp] theorem setRecord_mem (s : State) (i : Fin 8) (h : Half) (r : CaptureRecord) : (s.setRecord i h r).mem = s.mem := rfl
@[simp] theorem setRecord_ctl (s : State) (i : Fin 8) (h : Half) (r : CaptureRecord) : (s.setRecord i h r).ctl = s.ctl := rfl
@[simp] theorem setRecord_notices (s : State) (i : Fin 8) (h : Half) (r : CaptureRecord) : (s.setRecord i h r).notices = s.notices := rfl
@[simp] theorem setRecord_uPort (s : State) (i : Fin 8) (h : Half) (r : CaptureRecord) : (s.setRecord i h r).uPort = s.uPort := rfl
@[simp] theorem setRecord_dPort (s : State) (i : Fin 8) (h : Half) (r : CaptureRecord) : (s.setRecord i h r).dPort = s.dPort := rfl
@[simp] theorem setRecord_link (s : State) (i : Fin 8) (h : Half) (r : CaptureRecord) : (s.setRecord i h r).link = s.link := rfl
@[simp] theorem setRecord_ep (s : State) (i : Fin 8) (h : Half) (r : CaptureRecord) : (s.setRecord i h r).ep = s.ep := rfl
@[simp] theorem setRecord_micros (s : State) (i : Fin 8) (h : Half) (r : CaptureRecord) : (s.setRecord i h r).micros = s.micros := rfl
@[simp] theorem setRecord_free (s : State) (i : Fin 8) (h : Half) (r : CaptureRecord) : (s.setRecord i h r).free = s.free := rfl
@[simp] theorem setRecord_pending (s : State) (i : Fin 8) (h : Half) (r : CaptureRecord) : (s.setRecord i h r).pending = s.pending := rfl

/-! ## setLive -/

@[simp] theorem setLive_channels (s : State) (i : Fin 8) (l : SlotLive) : (s.setLive i l).channels = s.channels := rfl
@[simp] theorem setLive_handing (s : State) (i : Fin 8) (l : SlotLive) : (s.setLive i l).handing = s.handing := rfl
@[simp] theorem setLive_watches (s : State) (i : Fin 8) (l : SlotLive) : (s.setLive i l).watches = s.watches := rfl
@[simp] theorem setLive_capture (s : State) (i : Fin 8) (l : SlotLive) : (s.setLive i l).capture = s.capture := rfl
@[simp] theorem setLive_queue (s : State) (i : Fin 8) (l : SlotLive) : (s.setLive i l).queue = s.queue := rfl
@[simp] theorem setLive_mem (s : State) (i : Fin 8) (l : SlotLive) : (s.setLive i l).mem = s.mem := rfl
@[simp] theorem setLive_ctl (s : State) (i : Fin 8) (l : SlotLive) : (s.setLive i l).ctl = s.ctl := rfl
@[simp] theorem setLive_notices (s : State) (i : Fin 8) (l : SlotLive) : (s.setLive i l).notices = s.notices := rfl
@[simp] theorem setLive_uPort (s : State) (i : Fin 8) (l : SlotLive) : (s.setLive i l).uPort = s.uPort := rfl
@[simp] theorem setLive_dPort (s : State) (i : Fin 8) (l : SlotLive) : (s.setLive i l).dPort = s.dPort := rfl
@[simp] theorem setLive_link (s : State) (i : Fin 8) (l : SlotLive) : (s.setLive i l).link = s.link := rfl
@[simp] theorem setLive_ep (s : State) (i : Fin 8) (l : SlotLive) : (s.setLive i l).ep = s.ep := rfl
@[simp] theorem setLive_micros (s : State) (i : Fin 8) (l : SlotLive) : (s.setLive i l).micros = s.micros := rfl
@[simp] theorem setLive_free (s : State) (i : Fin 8) (l : SlotLive) : (s.setLive i l).free = s.free := rfl
@[simp] theorem setLive_pending (s : State) (i : Fin 8) (l : SlotLive) : (s.setLive i l).pending = s.pending := rfl

/-! ## setContext -/

@[simp] theorem setContext_channels (s : State) (i : Fin 4) (c : Context) : (s.setContext i c).channels = s.channels := rfl
@[simp] theorem setContext_handing (s : State) (i : Fin 4) (c : Context) : (s.setContext i c).handing = s.handing := rfl
@[simp] theorem setContext_watches (s : State) (i : Fin 4) (c : Context) : (s.setContext i c).watches = s.watches := rfl
@[simp] theorem setContext_slots (s : State) (i : Fin 4) (c : Context) : (s.setContext i c).slots = s.slots := rfl
@[simp] theorem setContext_capture (s : State) (i : Fin 4) (c : Context) : (s.setContext i c).capture = s.capture := rfl
@[simp] theorem setContext_queue (s : State) (i : Fin 4) (c : Context) : (s.setContext i c).queue = s.queue := rfl
@[simp] theorem setContext_mem (s : State) (i : Fin 4) (c : Context) : (s.setContext i c).mem = s.mem := rfl
@[simp] theorem setContext_ctl (s : State) (i : Fin 4) (c : Context) : (s.setContext i c).ctl = s.ctl := rfl
@[simp] theorem setContext_notices (s : State) (i : Fin 4) (c : Context) : (s.setContext i c).notices = s.notices := rfl
@[simp] theorem setContext_uPort (s : State) (i : Fin 4) (c : Context) : (s.setContext i c).uPort = s.uPort := rfl
@[simp] theorem setContext_dPort (s : State) (i : Fin 4) (c : Context) : (s.setContext i c).dPort = s.dPort := rfl
@[simp] theorem setContext_link (s : State) (i : Fin 4) (c : Context) : (s.setContext i c).link = s.link := rfl
@[simp] theorem setContext_micros (s : State) (i : Fin 4) (c : Context) : (s.setContext i c).micros = s.micros := rfl
@[simp] theorem setContext_free (s : State) (i : Fin 4) (c : Context) : (s.setContext i c).free = s.free := rfl
@[simp] theorem setContext_pending (s : State) (i : Fin 4) (c : Context) : (s.setContext i c).pending = s.pending := rfl

/-! ## setPort -/

@[simp] theorem setPort_channels (s : State) (p : Port) (x : PortState) : (s.setPort p x).channels = s.channels := by
  cases p <;> rfl
@[simp] theorem setPort_handing (s : State) (p : Port) (x : PortState) : (s.setPort p x).handing = s.handing := by
  cases p <;> rfl
@[simp] theorem setPort_watches (s : State) (p : Port) (x : PortState) : (s.setPort p x).watches = s.watches := by
  cases p <;> rfl
@[simp] theorem setPort_slots (s : State) (p : Port) (x : PortState) : (s.setPort p x).slots = s.slots := by
  cases p <;> rfl
@[simp] theorem setPort_capture (s : State) (p : Port) (x : PortState) : (s.setPort p x).capture = s.capture := by
  cases p <;> rfl
@[simp] theorem setPort_queue (s : State) (p : Port) (x : PortState) : (s.setPort p x).queue = s.queue := by
  cases p <;> rfl
@[simp] theorem setPort_mem (s : State) (p : Port) (x : PortState) : (s.setPort p x).mem = s.mem := by
  cases p <;> rfl
@[simp] theorem setPort_ctl (s : State) (p : Port) (x : PortState) : (s.setPort p x).ctl = s.ctl := by
  cases p <;> rfl
@[simp] theorem setPort_notices (s : State) (p : Port) (x : PortState) : (s.setPort p x).notices = s.notices := by
  cases p <;> rfl
@[simp] theorem setPort_link (s : State) (p : Port) (x : PortState) : (s.setPort p x).link = s.link := by
  cases p <;> rfl
@[simp] theorem setPort_ep (s : State) (p : Port) (x : PortState) : (s.setPort p x).ep = s.ep := by
  cases p <;> rfl
@[simp] theorem setPort_micros (s : State) (p : Port) (x : PortState) : (s.setPort p x).micros = s.micros := by
  cases p <;> rfl
@[simp] theorem setPort_free (s : State) (p : Port) (x : PortState) : (s.setPort p x).free = s.free := by
  cases p <;> rfl
@[simp] theorem setPort_pending (s : State) (p : Port) (x : PortState) : (s.setPort p x).pending = s.pending := by
  cases p <;> rfl

@[simp] theorem setPort_u_uPort (s : State) (x : PortState) : (s.setPort .u x).uPort = x := rfl
@[simp] theorem setPort_u_dPort (s : State) (x : PortState) : (s.setPort .u x).dPort = s.dPort := rfl
@[simp] theorem setPort_d_uPort (s : State) (x : PortState) : (s.setPort .d x).uPort = s.uPort := rfl
@[simp] theorem setPort_d_dPort (s : State) (x : PortState) : (s.setPort .d x).dPort = x := rfl

@[simp] theorem port_setPort (s : State) (p : Port) (x : PortState) : (s.setPort p x).port p = x := by
  cases p <;> rfl

theorem port_setPort_ne (s : State) {p q : Port} (x : PortState) (h : q ≠ p) : (s.setPort p x).port q = s.port q := by
  cases p <;> cases q <;> first | rfl | exact absurd rfl h

@[simp] theorem setPort_setPort (s : State) (p : Port) (x y : PortState) : (s.setPort p x).setPort p y = s.setPort p y := by
  cases p <;> rfl

@[simp] theorem setPort_self (s : State) (p : Port) : s.setPort p (s.port p) = s := by
  cases p <;> rfl

/-! ## The place written -/

@[simp] theorem channel_setChannel (s : State) (e : Fin 64) (x : MapEntry) : (s.setChannel e x).channel e = x := by
  simp [State.channel, State.setChannel]

theorem channel_setChannel_ne (s : State) {e f : Fin 64} (x : MapEntry) (h : f ≠ e) :
    (s.setChannel e x).channel f = s.channel f := by
  have : e.val ≠ f.val := fun k => h (Fin.ext k.symm)
  simp [State.channel, State.setChannel, Vector.getElem_set_ne _ _ this]

@[simp] theorem watch_setWatch (s : State) (w : Fin 32) (x : Watch) : (s.setWatch w x).watch w = x := by
  simp [State.watch, State.setWatch]

theorem watch_setWatch_ne (s : State) {w v : Fin 32} (x : Watch) (h : v ≠ w) : (s.setWatch w x).watch v = s.watch v := by
  have : w.val ≠ v.val := fun k => h (Fin.ext k.symm)
  simp [State.watch, State.setWatch, Vector.getElem_set_ne _ _ this]

@[simp] theorem slot_setSlot (s : State) (i : Fin 8) (x : Slot) : (s.setSlot i x).slot i = x := by
  simp [State.slot, State.setSlot]

theorem slot_setSlot_ne (s : State) {i j : Fin 8} (x : Slot) (h : j ≠ i) : (s.setSlot i x).slot j = s.slot j := by
  have : i.val ≠ j.val := fun k => h (Fin.ext k.symm)
  simp [State.slot, State.setSlot, Vector.getElem_set_ne _ _ this]

@[simp] theorem context_setContext (s : State) (i : Fin 4) (c : Context) : (s.setContext i c).context i = c := by
  simp [State.context, State.setContext]

theorem context_setContext_ne (s : State) {i j : Fin 4} (c : Context) (h : j ≠ i) :
    (s.setContext i c).context j = s.context j := by
  have : i.val ≠ j.val := fun k => h (Fin.ext k.symm)
  simp [State.context, State.setContext, Vector.getElem_set_ne _ _ this]

@[simp] theorem record_setRecord (x : Slot) (h : Half) (r : CaptureRecord) : (x.setRecord h r).record h = r := by
  cases h <;> rfl

@[simp] theorem record_setRecord_other (x : Slot) (h : Half) (r : CaptureRecord) :
    (x.setRecord h r).record h.other = x.record h.other := by
  cases h <;> rfl

theorem record_setRecord_ne (x : Slot) {h k : Half} (r : CaptureRecord) (n : k ≠ h) :
    (x.setRecord h r).record k = x.record k := by
  cases h <;> cases k <;> first | rfl | exact absurd rfl n

@[simp] theorem slot_setRecord_config (x : Slot) (h : Half) (r : CaptureRecord) : (x.setRecord h r).config = x.config := by
  cases h <;> rfl

@[simp] theorem slot_setRecord_live (x : Slot) (h : Half) (r : CaptureRecord) : (x.setRecord h r).live = x.live := by
  cases h <;> rfl

@[simp] theorem record_with_live (x : Slot) (l : SlotLive) (h : Half) : ({ x with live := l } : Slot).record h = x.record h := by
  cases h <;> rfl

/-! ## Reads of a slot after the updates of its parts -/

@[simp] theorem slot_of_setRecord (s : State) (i : Fin 8) (h : Half) (r : CaptureRecord) :
    (s.setRecord i h r).slot i = (s.slot i).setRecord h r := by
  simp [State.setRecord]

theorem slot_of_setRecord_ne (s : State) {i j : Fin 8} (h : Half) (r : CaptureRecord) (n : j ≠ i) :
    (s.setRecord i h r).slot j = s.slot j :=
  slot_setSlot_ne s _ n

@[simp] theorem slot_of_setLive (s : State) (i : Fin 8) (l : SlotLive) :
    (s.setLive i l).slot i = { s.slot i with live := l } := by
  simp [State.setLive]

theorem slot_of_setLive_ne (s : State) {i j : Fin 8} (l : SlotLive) (n : j ≠ i) : (s.setLive i l).slot j = s.slot j :=
  slot_setSlot_ne s _ n

@[simp] theorem state_record_setRecord (s : State) (i : Fin 8) (h : Half) (r : CaptureRecord) :
    (s.setRecord i h r).record i h = r := by
  simp [State.record]

/-! ## Reads depend on their own table alone -/

theorem channel_congr {s t : State} (h : t.channels = s.channels) (e : Fin 64) : t.channel e = s.channel e := by
  simp [State.channel, h]

theorem watch_congr {s t : State} (h : t.watches = s.watches) (w : Fin 32) : t.watch w = s.watch w := by
  simp [State.watch, h]

theorem slot_congr {s t : State} (h : t.slots = s.slots) (i : Fin 8) : t.slot i = s.slot i := by
  simp [State.slot, h]

theorem record_congr {s t : State} (h : t.slots = s.slots) (i : Fin 8) (k : Half) : t.record i k = s.record i k := by
  simp [State.record, slot_congr h]

theorem context_congr {s t : State} (h : t.ep = s.ep) (i : Fin 4) : t.context i = s.context i := by
  simp [State.context, h]

/-! ## A fold keeps what its step keeps -/

theorem foldl_keeps {α β : Type} (view : State → β) (f : State → α → State) (step : ∀ s a, view (f s a) = view s) (l : List α)
    (s : State) : view (l.foldl f s) = view s := by
  induction l generalizing s with
  | nil => rfl
  | cons a l ih => rw [List.foldl_cons, ih, step]

theorem foldl_inv {α : Type} (Keep : State → Prop) (f : State → α → State) (step : ∀ s a, Keep s → Keep (f s a)) (l : List α)
    (s : State) (h : Keep s) : Keep (l.foldl f s) := by
  induction l generalizing s with
  | nil => exact h
  | cons a l ih => exact ih _ (step s a h)

end Sys2Proof.Machine
end

