-- ==== Sys2Proof/Laws/Frames.lean ====
section
/-! SUPPORT. What each shared operation leaves unchanged, said once for each operation: every field it never touches. Tagged simp, so
that a later proof reads a field through an operation without unfolding it. -/

namespace Sys2Proof.Machine

/-! ## Transmit arbiters -/

@[simp] theorem dChoose_keeps (s : State) :
    (dChoose s).channels = s.channels ∧ (dChoose s).handing = s.handing ∧ (dChoose s).watches = s.watches ∧
    (dChoose s).slots = s.slots ∧ (dChoose s).capture = s.capture ∧ (dChoose s).queue = s.queue ∧ (dChoose s).mem = s.mem ∧
    (dChoose s).ctl = s.ctl ∧ (dChoose s).notices = s.notices ∧ (dChoose s).uPort = s.uPort ∧ (dChoose s).dPort = s.dPort ∧
    (dChoose s).ep = s.ep ∧ (dChoose s).micros = s.micros ∧ (dChoose s).free = s.free ∧ (dChoose s).pending = s.pending := by
  unfold dChoose
  split <;> simp

@[simp] theorem uChoose_keeps (s : State) :
    (uChoose s).channels = s.channels ∧ (uChoose s).handing = s.handing ∧ (uChoose s).watches = s.watches ∧
    (uChoose s).slots = s.slots ∧ (uChoose s).capture = s.capture ∧ (uChoose s).queue = s.queue ∧ (uChoose s).mem = s.mem ∧
    (uChoose s).ctl = s.ctl ∧ (uChoose s).notices = s.notices ∧ (uChoose s).uPort = s.uPort ∧ (uChoose s).dPort = s.dPort ∧
    (uChoose s).ep = s.ep ∧ (uChoose s).micros = s.micros ∧ (uChoose s).free = s.free ∧ (uChoose s).pending = s.pending := by
  unfold uChoose
  split <;> simp

/-! ## Notice unit -/

@[simp] theorem build_keeps (s : State) :
    (build s).channels = s.channels ∧ (build s).handing = s.handing ∧ (build s).watches = s.watches ∧
    (build s).slots = s.slots ∧ (build s).capture = s.capture ∧ (build s).queue = s.queue ∧ (build s).mem = s.mem ∧
    (build s).ctl = s.ctl ∧ (build s).uPort = s.uPort ∧ (build s).dPort = s.dPort ∧ (build s).ep = s.ep ∧
    (build s).micros = s.micros ∧ (build s).free = s.free ∧ (build s).pending = s.pending := by
  unfold build
  split <;> simp

@[simp] theorem raise_keeps (c : Fin 8) (n : Fin 32) (s : State) :
    (raise c n s).channels = s.channels ∧ (raise c n s).handing = s.handing ∧ (raise c n s).watches = s.watches ∧
    (raise c n s).slots = s.slots ∧ (raise c n s).capture = s.capture ∧ (raise c n s).queue = s.queue ∧
    (raise c n s).mem = s.mem ∧ (raise c n s).ctl = s.ctl ∧ (raise c n s).uPort = s.uPort ∧ (raise c n s).dPort = s.dPort ∧
    (raise c n s).ep = s.ep ∧ (raise c n s).micros = s.micros ∧ (raise c n s).free = s.free ∧
    (raise c n s).pending = s.pending := by
  simp [raise]

/-! ## Memory controller -/

@[simp] theorem beginBurst_keeps (s : State) :
    (beginBurst s).channels = s.channels ∧ (beginBurst s).handing = s.handing ∧ (beginBurst s).watches = s.watches ∧
    (beginBurst s).slots = s.slots ∧ (beginBurst s).capture = s.capture ∧ (beginBurst s).mem = s.mem ∧
    (beginBurst s).notices = s.notices ∧ (beginBurst s).uPort = s.uPort ∧ (beginBurst s).dPort = s.dPort ∧
    (beginBurst s).link = s.link ∧ (beginBurst s).ep = s.ep ∧ (beginBurst s).micros = s.micros ∧
    (beginBurst s).free = s.free ∧ (beginBurst s).pending = s.pending := by
  simp [beginBurst]

@[simp] theorem beginCountWrite_keeps (w : Fin 16) (s : State) :
    (beginCountWrite w s).channels = s.channels ∧ (beginCountWrite w s).handing = s.handing ∧
    (beginCountWrite w s).watches = s.watches ∧ (beginCountWrite w s).slots = s.slots ∧
    (beginCountWrite w s).capture = s.capture ∧ (beginCountWrite w s).queue = s.queue ∧ (beginCountWrite w s).mem = s.mem ∧
    (beginCountWrite w s).notices = s.notices ∧ (beginCountWrite w s).uPort = s.uPort ∧
    (beginCountWrite w s).dPort = s.dPort ∧ (beginCountWrite w s).link = s.link ∧ (beginCountWrite w s).ep = s.ep ∧
    (beginCountWrite w s).micros = s.micros ∧ (beginCountWrite w s).free = s.free ∧ (beginCountWrite w s).pending = s.pending := by
  simp [beginCountWrite]

@[simp] theorem beginWork_keeps (s : State) :
    (beginWork s).channels = s.channels ∧ (beginWork s).handing = s.handing ∧ (beginWork s).watches = s.watches ∧
    (beginWork s).slots = s.slots ∧ (beginWork s).capture = s.capture ∧ (beginWork s).mem = s.mem ∧
    (beginWork s).notices = s.notices ∧ (beginWork s).uPort = s.uPort ∧ (beginWork s).dPort = s.dPort ∧
    (beginWork s).link = s.link ∧ (beginWork s).ep = s.ep ∧ (beginWork s).micros = s.micros ∧ (beginWork s).free = s.free ∧
    (beginWork s).pending = s.pending := by
  unfold beginWork
  (repeat' split) <;> simp

@[simp] theorem chooseMem_keeps (s : State) :
    (chooseMem s).channels = s.channels ∧ (chooseMem s).handing = s.handing ∧ (chooseMem s).watches = s.watches ∧
    (chooseMem s).slots = s.slots ∧ (chooseMem s).capture = s.capture ∧ (chooseMem s).mem = s.mem ∧
    (chooseMem s).notices = s.notices ∧ (chooseMem s).uPort = s.uPort ∧ (chooseMem s).dPort = s.dPort ∧
    (chooseMem s).link = s.link ∧ (chooseMem s).ep = s.ep ∧ (chooseMem s).micros = s.micros ∧ (chooseMem s).free = s.free ∧
    (chooseMem s).pending = s.pending := by
  unfold chooseMem
  split <;> simp

@[simp] theorem beginExit_keeps (s : State) :
    (beginExit s).channels = s.channels ∧ (beginExit s).handing = s.handing ∧ (beginExit s).watches = s.watches ∧
    (beginExit s).slots = s.slots ∧ (beginExit s).capture = s.capture ∧ (beginExit s).queue = s.queue ∧
    (beginExit s).mem = s.mem ∧ (beginExit s).notices = s.notices ∧ (beginExit s).uPort = s.uPort ∧
    (beginExit s).dPort = s.dPort ∧ (beginExit s).link = s.link ∧ (beginExit s).ep = s.ep ∧ (beginExit s).micros = s.micros ∧
    (beginExit s).free = s.free ∧ (beginExit s).pending = s.pending := by
  simp [beginExit]

@[simp] theorem workArrives_keeps (s : State) :
    (workArrives s).channels = s.channels ∧ (workArrives s).handing = s.handing ∧ (workArrives s).watches = s.watches ∧
    (workArrives s).slots = s.slots ∧ (workArrives s).capture = s.capture ∧ (workArrives s).mem = s.mem ∧
    (workArrives s).notices = s.notices ∧ (workArrives s).uPort = s.uPort ∧ (workArrives s).dPort = s.dPort ∧
    (workArrives s).link = s.link ∧ (workArrives s).ep = s.ep ∧ (workArrives s).micros = s.micros ∧
    (workArrives s).free = s.free ∧ (workArrives s).pending = s.pending := by
  unfold workArrives
  split <;> simp

@[simp] theorem setMark_keeps (w : Fin 16) (s : State) :
    (setMark w s).channels = s.channels ∧ (setMark w s).handing = s.handing ∧ (setMark w s).watches = s.watches ∧
    (setMark w s).slots = s.slots ∧ (setMark w s).capture = s.capture ∧ (setMark w s).queue = s.queue ∧
    (setMark w s).mem = s.mem ∧ (setMark w s).notices = s.notices ∧ (setMark w s).uPort = s.uPort ∧
    (setMark w s).dPort = s.dPort ∧ (setMark w s).link = s.link ∧ (setMark w s).ep = s.ep ∧ (setMark w s).micros = s.micros ∧
    (setMark w s).free = s.free ∧ (setMark w s).pending = s.pending := by
  simp [setMark]

@[simp] theorem markDirty_keeps (w : Fin 16) (s : State) :
    (markDirty w s).channels = s.channels ∧ (markDirty w s).handing = s.handing ∧ (markDirty w s).watches = s.watches ∧
    (markDirty w s).slots = s.slots ∧ (markDirty w s).capture = s.capture ∧ (markDirty w s).mem = s.mem ∧
    (markDirty w s).notices = s.notices ∧ (markDirty w s).uPort = s.uPort ∧ (markDirty w s).dPort = s.dPort ∧
    (markDirty w s).link = s.link ∧ (markDirty w s).ep = s.ep ∧ (markDirty w s).micros = s.micros ∧
    (markDirty w s).free = s.free ∧ (markDirty w s).pending = s.pending := by
  unfold markDirty
  split <;> simp

@[simp] theorem markQuietly_keeps (w : Fin 16) (s : State) :
    (markQuietly w s).channels = s.channels ∧ (markQuietly w s).handing = s.handing ∧ (markQuietly w s).watches = s.watches ∧
    (markQuietly w s).slots = s.slots ∧ (markQuietly w s).capture = s.capture ∧ (markQuietly w s).mem = s.mem ∧
    (markQuietly w s).notices = s.notices ∧ (markQuietly w s).uPort = s.uPort ∧ (markQuietly w s).dPort = s.dPort ∧
    (markQuietly w s).link = s.link ∧ (markQuietly w s).ep = s.ep ∧ (markQuietly w s).micros = s.micros ∧
    (markQuietly w s).free = s.free ∧ (markQuietly w s).pending = s.pending := by
  unfold markQuietly
  split <;> simp

@[simp] theorem markAll_keeps (s : State) :
    (markAll s).channels = s.channels ∧ (markAll s).handing = s.handing ∧ (markAll s).watches = s.watches ∧
    (markAll s).slots = s.slots ∧ (markAll s).capture = s.capture ∧ (markAll s).mem = s.mem ∧
    (markAll s).notices = s.notices ∧ (markAll s).uPort = s.uPort ∧ (markAll s).dPort = s.dPort ∧ (markAll s).link = s.link ∧
    (markAll s).ep = s.ep ∧ (markAll s).micros = s.micros ∧ (markAll s).free = s.free ∧ (markAll s).pending = s.pending := by
  simp [markAll]

@[simp] theorem freePort_keeps (s : State) :
    (freePort s).channels = s.channels ∧ (freePort s).handing = s.handing ∧ (freePort s).watches = s.watches ∧
    (freePort s).slots = s.slots ∧ (freePort s).capture = s.capture ∧ (freePort s).mem = s.mem ∧
    (freePort s).notices = s.notices ∧ (freePort s).uPort = s.uPort ∧ (freePort s).dPort = s.dPort ∧
    (freePort s).link = s.link ∧ (freePort s).ep = s.ep ∧ (freePort s).micros = s.micros ∧ (freePort s).free = s.free ∧
    (freePort s).pending = s.pending := by
  simp [freePort]

@[simp] theorem withdrawHold_keeps (s : State) :
    (withdrawHold s).channels = s.channels ∧ (withdrawHold s).handing = s.handing ∧ (withdrawHold s).watches = s.watches ∧
    (withdrawHold s).slots = s.slots ∧ (withdrawHold s).capture = s.capture ∧ (withdrawHold s).queue = s.queue ∧
    (withdrawHold s).mem = s.mem ∧ (withdrawHold s).notices = s.notices ∧ (withdrawHold s).uPort = s.uPort ∧
    (withdrawHold s).dPort = s.dPort ∧ (withdrawHold s).link = s.link ∧ (withdrawHold s).ep = s.ep ∧
    (withdrawHold s).micros = s.micros ∧ (withdrawHold s).free = s.free ∧ (withdrawHold s).pending = s.pending := by
  simp [withdrawHold]

/-! ## Halves and the index -/

@[simp] theorem activate_keeps (i : Fin 8) (h : Half) (s : State) :
    (activate i h s).channels = s.channels ∧ (activate i h s).handing = s.handing ∧ (activate i h s).watches = s.watches ∧
    (activate i h s).capture = s.capture ∧ (activate i h s).queue = s.queue ∧ (activate i h s).mem = s.mem ∧
    (activate i h s).ctl = s.ctl ∧ (activate i h s).notices = s.notices ∧ (activate i h s).uPort = s.uPort ∧
    (activate i h s).dPort = s.dPort ∧ (activate i h s).link = s.link ∧ (activate i h s).ep = s.ep ∧
    (activate i h s).micros = s.micros ∧ (activate i h s).free = s.free ∧ (activate i h s).pending = s.pending := by
  simp [activate]

@[simp] theorem takeHalf_keeps (i : Fin 8) (h : Half) (s : State) :
    (takeHalf i h s).channels = s.channels ∧ (takeHalf i h s).handing = s.handing ∧ (takeHalf i h s).watches = s.watches ∧
    (takeHalf i h s).capture = s.capture ∧ (takeHalf i h s).mem = s.mem ∧ (takeHalf i h s).notices = s.notices ∧
    (takeHalf i h s).uPort = s.uPort ∧ (takeHalf i h s).dPort = s.dPort ∧ (takeHalf i h s).link = s.link ∧
    (takeHalf i h s).ep = s.ep ∧ (takeHalf i h s).micros = s.micros ∧ (takeHalf i h s).free = s.free ∧
    (takeHalf i h s).pending = s.pending := by
  simp [takeHalf]

@[simp] theorem armHalf_keeps (i : Fin 8) (h : Half) (s : State) :
    (armHalf i h s).channels = s.channels ∧ (armHalf i h s).handing = s.handing ∧ (armHalf i h s).watches = s.watches ∧
    (armHalf i h s).capture = s.capture ∧ (armHalf i h s).mem = s.mem ∧ (armHalf i h s).notices = s.notices ∧
    (armHalf i h s).uPort = s.uPort ∧ (armHalf i h s).dPort = s.dPort ∧ (armHalf i h s).link = s.link ∧
    (armHalf i h s).ep = s.ep ∧ (armHalf i h s).micros = s.micros ∧ (armHalf i h s).free = s.free ∧
    (armHalf i h s).pending = s.pending := by
  simp [armHalf]

@[simp] theorem emptyHalf_keeps (i : Fin 8) (h : Half) (s : State) :
    (emptyHalf i h s).channels = s.channels ∧ (emptyHalf i h s).handing = s.handing ∧ (emptyHalf i h s).watches = s.watches ∧
    (emptyHalf i h s).capture = s.capture ∧ (emptyHalf i h s).mem = s.mem ∧ (emptyHalf i h s).notices = s.notices ∧
    (emptyHalf i h s).uPort = s.uPort ∧ (emptyHalf i h s).dPort = s.dPort ∧ (emptyHalf i h s).link = s.link ∧
    (emptyHalf i h s).ep = s.ep ∧ (emptyHalf i h s).micros = s.micros ∧ (emptyHalf i h s).free = s.free ∧
    (emptyHalf i h s).pending = s.pending := by
  simp [emptyHalf]

@[simp] theorem removeIndex_keeps (i : Fin 8) (h : Half) (s : State) :
    (removeIndex i h s).channels = s.channels ∧ (removeIndex i h s).handing = s.handing ∧
    (removeIndex i h s).watches = s.watches ∧ (removeIndex i h s).slots = s.slots ∧ (removeIndex i h s).queue = s.queue ∧
    (removeIndex i h s).mem = s.mem ∧ (removeIndex i h s).ctl = s.ctl ∧ (removeIndex i h s).notices = s.notices ∧
    (removeIndex i h s).uPort = s.uPort ∧ (removeIndex i h s).dPort = s.dPort ∧ (removeIndex i h s).link = s.link ∧
    (removeIndex i h s).ep = s.ep ∧ (removeIndex i h s).micros = s.micros ∧ (removeIndex i h s).free = s.free ∧
    (removeIndex i h s).pending = s.pending := by
  simp [removeIndex]

@[simp] theorem reclaim_keeps (i : Fin 8) (h : Half) (s : State) :
    (reclaim i h s).channels = s.channels ∧ (reclaim i h s).handing = s.handing ∧ (reclaim i h s).watches = s.watches ∧
    (reclaim i h s).mem = s.mem ∧ (reclaim i h s).uPort = s.uPort ∧ (reclaim i h s).dPort = s.dPort ∧
    (reclaim i h s).ep = s.ep ∧ (reclaim i h s).micros = s.micros ∧ (reclaim i h s).free = s.free ∧
    (reclaim i h s).pending = s.pending := by
  simp [reclaim]

@[simp] theorem armReclaim_keeps (i : Fin 8) (h : Half) (s : State) :
    (armReclaim i h s).channels = s.channels ∧ (armReclaim i h s).handing = s.handing ∧
    (armReclaim i h s).watches = s.watches ∧ (armReclaim i h s).mem = s.mem ∧ (armReclaim i h s).uPort = s.uPort ∧
    (armReclaim i h s).dPort = s.dPort ∧ (armReclaim i h s).ep = s.ep ∧ (armReclaim i h s).micros = s.micros ∧
    (armReclaim i h s).free = s.free ∧ (armReclaim i h s).pending = s.pending := by
  simp [armReclaim]

@[simp] theorem listFull_keeps (i : Fin 8) (h : Half) (s : State) :
    (listFull i h s).channels = s.channels ∧ (listFull i h s).handing = s.handing ∧ (listFull i h s).watches = s.watches ∧
    (listFull i h s).queue = s.queue ∧ (listFull i h s).mem = s.mem ∧ (listFull i h s).ctl = s.ctl ∧
    (listFull i h s).uPort = s.uPort ∧ (listFull i h s).dPort = s.dPort ∧ (listFull i h s).ep = s.ep ∧
    (listFull i h s).micros = s.micros ∧ (listFull i h s).free = s.free ∧ (listFull i h s).pending = s.pending := by
  simp [listFull]

@[simp] theorem halfFull_keeps (i : Fin 8) (h : Half) (s : State) :
    (halfFull i h s).channels = s.channels ∧ (halfFull i h s).handing = s.handing ∧ (halfFull i h s).watches = s.watches ∧
    (halfFull i h s).mem = s.mem ∧ (halfFull i h s).uPort = s.uPort ∧ (halfFull i h s).dPort = s.dPort ∧
    (halfFull i h s).ep = s.ep ∧ (halfFull i h s).micros = s.micros ∧ (halfFull i h s).free = s.free ∧
    (halfFull i h s).pending = s.pending := by
  unfold halfFull
  split <;> simp

@[simp] theorem sealIfWritten_keeps (i : Fin 8) (h : Half) (s : State) :
    (sealIfWritten i h s).channels = s.channels ∧ (sealIfWritten i h s).handing = s.handing ∧
    (sealIfWritten i h s).watches = s.watches ∧ (sealIfWritten i h s).mem = s.mem ∧ (sealIfWritten i h s).uPort = s.uPort ∧
    (sealIfWritten i h s).dPort = s.dPort ∧ (sealIfWritten i h s).ep = s.ep ∧ (sealIfWritten i h s).micros = s.micros ∧
    (sealIfWritten i h s).free = s.free ∧ (sealIfWritten i h s).pending = s.pending := by
  unfold sealIfWritten
  split <;> simp

@[simp] theorem toRest_keeps (i : Fin 8) (x : SlotState) (s : State) :
    (toRest i x s).channels = s.channels ∧ (toRest i x s).handing = s.handing ∧ (toRest i x s).watches = s.watches ∧
    (toRest i x s).capture = s.capture ∧ (toRest i x s).queue = s.queue ∧ (toRest i x s).mem = s.mem ∧
    (toRest i x s).ctl = s.ctl ∧ (toRest i x s).notices = s.notices ∧ (toRest i x s).uPort = s.uPort ∧
    (toRest i x s).dPort = s.dPort ∧ (toRest i x s).link = s.link ∧ (toRest i x s).ep = s.ep ∧
    (toRest i x s).micros = s.micros ∧ (toRest i x s).free = s.free ∧ (toRest i x s).pending = s.pending := by
  simp [toRest]

@[simp] theorem nextHalf_keeps (i : Fin 8) (h : Half) (s : State) :
    (nextHalf i h s).channels = s.channels ∧ (nextHalf i h s).handing = s.handing ∧ (nextHalf i h s).watches = s.watches ∧
    (nextHalf i h s).mem = s.mem ∧ (nextHalf i h s).uPort = s.uPort ∧ (nextHalf i h s).dPort = s.dPort ∧
    (nextHalf i h s).ep = s.ep ∧ (nextHalf i h s).micros = s.micros ∧ (nextHalf i h s).free = s.free ∧
    (nextHalf i h s).pending = s.pending := by
  unfold nextHalf
  split <;> simp

@[simp] theorem complete_keeps (i : Fin 8) (h : Half) (s : State) :
    (complete i h s).channels = s.channels ∧ (complete i h s).handing = s.handing ∧ (complete i h s).watches = s.watches ∧
    (complete i h s).mem = s.mem ∧ (complete i h s).uPort = s.uPort ∧ (complete i h s).dPort = s.dPort ∧
    (complete i h s).ep = s.ep ∧ (complete i h s).micros = s.micros ∧ (complete i h s).free = s.free ∧
    (complete i h s).pending = s.pending := by
  simp [complete]

@[simp] theorem truncate_keeps (i : Fin 8) (h : Half) (s : State) :
    (truncate i h s).channels = s.channels ∧ (truncate i h s).handing = s.handing ∧ (truncate i h s).watches = s.watches ∧
    (truncate i h s).mem = s.mem ∧ (truncate i h s).uPort = s.uPort ∧ (truncate i h s).dPort = s.dPort ∧
    (truncate i h s).ep = s.ep ∧ (truncate i h s).micros = s.micros ∧ (truncate i h s).free = s.free ∧
    (truncate i h s).pending = s.pending := by
  simp [truncate]

/-! ## Samples and triggers -/

@[simp] theorem afterPost_keeps (i : Fin 8) (h : Half) (s : State) :
    (afterPost i h s).channels = s.channels ∧ (afterPost i h s).handing = s.handing ∧ (afterPost i h s).watches = s.watches ∧
    (afterPost i h s).mem = s.mem ∧ (afterPost i h s).uPort = s.uPort ∧ (afterPost i h s).dPort = s.dPort ∧
    (afterPost i h s).ep = s.ep ∧ (afterPost i h s).micros = s.micros ∧ (afterPost i h s).free = s.free ∧
    (afterPost i h s).pending = s.pending := by
  unfold afterPost
  (repeat' split) <;> simp

@[simp] theorem loseSample_keeps (i : Fin 8) (h : Half) (s : State) :
    (loseSample i h s).channels = s.channels ∧ (loseSample i h s).handing = s.handing ∧
    (loseSample i h s).watches = s.watches ∧ (loseSample i h s).capture = s.capture ∧ (loseSample i h s).queue = s.queue ∧
    (loseSample i h s).mem = s.mem ∧ (loseSample i h s).ctl = s.ctl ∧ (loseSample i h s).uPort = s.uPort ∧
    (loseSample i h s).dPort = s.dPort ∧ (loseSample i h s).ep = s.ep ∧ (loseSample i h s).micros = s.micros ∧
    (loseSample i h s).free = s.free ∧ (loseSample i h s).pending = s.pending := by
  simp [loseSample]

@[simp] theorem storeSample_keeps (i : Fin 8) (h : Half) (v : Sample) (t : Tick) (s : State) :
    (storeSample i h v t s).channels = s.channels ∧ (storeSample i h v t s).handing = s.handing ∧
    (storeSample i h v t s).watches = s.watches ∧ (storeSample i h v t s).mem = s.mem ∧
    (storeSample i h v t s).uPort = s.uPort ∧ (storeSample i h v t s).dPort = s.dPort ∧ (storeSample i h v t s).ep = s.ep ∧
    (storeSample i h v t s).micros = s.micros ∧ (storeSample i h v t s).free = s.free ∧
    (storeSample i h v t s).pending = s.pending := by
  unfold storeSample
  split <;> simp

@[simp] theorem slotSample_keeps (i : Fin 8) (v : Sample) (t : Tick) (s : State) :
    (slotSample i v t s).channels = s.channels ∧ (slotSample i v t s).handing = s.handing ∧
    (slotSample i v t s).watches = s.watches ∧ (slotSample i v t s).mem = s.mem ∧ (slotSample i v t s).uPort = s.uPort ∧
    (slotSample i v t s).dPort = s.dPort ∧ (slotSample i v t s).ep = s.ep ∧ (slotSample i v t s).micros = s.micros ∧
    (slotSample i v t s).free = s.free ∧ (slotSample i v t s).pending = s.pending := by
  unfold slotSample
  (repeat' split) <;> simp

@[simp] theorem countGap_keeps (i : Fin 8) (s : State) :
    (countGap i s).channels = s.channels ∧ (countGap i s).handing = s.handing ∧ (countGap i s).watches = s.watches ∧
    (countGap i s).capture = s.capture ∧ (countGap i s).queue = s.queue ∧ (countGap i s).mem = s.mem ∧
    (countGap i s).ctl = s.ctl ∧ (countGap i s).notices = s.notices ∧ (countGap i s).uPort = s.uPort ∧
    (countGap i s).dPort = s.dPort ∧ (countGap i s).link = s.link ∧ (countGap i s).ep = s.ep ∧
    (countGap i s).micros = s.micros ∧ (countGap i s).free = s.free ∧ (countGap i s).pending = s.pending := by
  unfold countGap
  split <;> simp

@[simp] theorem trigger_keeps (i : Fin 8) (n : Nat) (t : Tick) (s : State) :
    (trigger i n t s).1.channels = s.channels ∧ (trigger i n t s).1.handing = s.handing ∧
    (trigger i n t s).1.watches = s.watches ∧ (trigger i n t s).1.capture = s.capture ∧ (trigger i n t s).1.queue = s.queue ∧
    (trigger i n t s).1.mem = s.mem ∧ (trigger i n t s).1.ctl = s.ctl ∧ (trigger i n t s).1.uPort = s.uPort ∧
    (trigger i n t s).1.dPort = s.dPort ∧ (trigger i n t s).1.ep = s.ep ∧ (trigger i n t s).1.micros = s.micros ∧
    (trigger i n t s).1.free = s.free ∧ (trigger i n t s).1.pending = s.pending := by
  unfold trigger
  (repeat' split) <;> simp

@[simp] theorem requestTrigger_keeps (w : Fin 32) (t : Tick) (s : State) :
    (requestTrigger w t s).1.channels = s.channels ∧ (requestTrigger w t s).1.handing = s.handing ∧
    (requestTrigger w t s).1.watches = s.watches ∧ (requestTrigger w t s).1.capture = s.capture ∧
    (requestTrigger w t s).1.queue = s.queue ∧ (requestTrigger w t s).1.mem = s.mem ∧ (requestTrigger w t s).1.ctl = s.ctl ∧
    (requestTrigger w t s).1.uPort = s.uPort ∧ (requestTrigger w t s).1.dPort = s.dPort ∧
    (requestTrigger w t s).1.ep = s.ep ∧ (requestTrigger w t s).1.micros = s.micros ∧
    (requestTrigger w t s).1.free = s.free ∧ (requestTrigger w t s).1.pending = s.pending := by
  unfold requestTrigger
  split <;> simp

@[simp] theorem fireWatch_keeps (w : Fin 32) (t : Tick) (s : State) :
    (fireWatch w t s).channels = s.channels ∧ (fireWatch w t s).handing = s.handing ∧ (fireWatch w t s).capture = s.capture ∧
    (fireWatch w t s).queue = s.queue ∧ (fireWatch w t s).mem = s.mem ∧ (fireWatch w t s).ctl = s.ctl ∧
    (fireWatch w t s).uPort = s.uPort ∧ (fireWatch w t s).dPort = s.dPort ∧ (fireWatch w t s).ep = s.ep ∧
    (fireWatch w t s).micros = s.micros ∧ (fireWatch w t s).free = s.free ∧ (fireWatch w t s).pending = s.pending := by
  simp [fireWatch]

@[simp] theorem watchSample_keeps (w : Fin 32) (v : Sample) (t : Tick) (s : State) :
    (watchSample w v t s).channels = s.channels ∧ (watchSample w v t s).handing = s.handing ∧
    (watchSample w v t s).capture = s.capture ∧ (watchSample w v t s).queue = s.queue ∧ (watchSample w v t s).mem = s.mem ∧
    (watchSample w v t s).ctl = s.ctl ∧ (watchSample w v t s).uPort = s.uPort ∧ (watchSample w v t s).dPort = s.dPort ∧
    (watchSample w v t s).ep = s.ep ∧ (watchSample w v t s).micros = s.micros ∧ (watchSample w v t s).free = s.free ∧
    (watchSample w v t s).pending = s.pending := by
  unfold watchSample
  (repeat' split) <;> simp

@[simp] theorem restartWatches_keeps (e : Fin 64) (s : State) :
    (restartWatches e s).channels = s.channels ∧ (restartWatches e s).handing = s.handing ∧
    (restartWatches e s).slots = s.slots ∧ (restartWatches e s).capture = s.capture ∧ (restartWatches e s).queue = s.queue ∧
    (restartWatches e s).mem = s.mem ∧ (restartWatches e s).ctl = s.ctl ∧ (restartWatches e s).notices = s.notices ∧
    (restartWatches e s).uPort = s.uPort ∧ (restartWatches e s).dPort = s.dPort ∧ (restartWatches e s).link = s.link ∧
    (restartWatches e s).ep = s.ep ∧ (restartWatches e s).micros = s.micros ∧ (restartWatches e s).free = s.free ∧
    (restartWatches e s).pending = s.pending := by
  simp [restartWatches]

@[simp] theorem takeGap_keeps (e : Fin 64) (b : Option (Fin 8)) (s : State) :
    (takeGap e b s).channels = s.channels ∧ (takeGap e b s).handing = s.handing ∧ (takeGap e b s).capture = s.capture ∧
    (takeGap e b s).queue = s.queue ∧ (takeGap e b s).mem = s.mem ∧ (takeGap e b s).ctl = s.ctl ∧
    (takeGap e b s).notices = s.notices ∧ (takeGap e b s).uPort = s.uPort ∧ (takeGap e b s).dPort = s.dPort ∧
    (takeGap e b s).link = s.link ∧ (takeGap e b s).ep = s.ep ∧ (takeGap e b s).micros = s.micros ∧
    (takeGap e b s).free = s.free ∧ (takeGap e b s).pending = s.pending := by
  unfold takeGap
  split <;> simp

@[simp] theorem handToWatch_keeps (e : Fin 64) (w : Fin 32) (v : Sample) (t : Tick) (s : State) :
    (handToWatch e w v t s).channels = s.channels ∧ (handToWatch e w v t s).handing = s.handing ∧
    (handToWatch e w v t s).capture = s.capture ∧ (handToWatch e w v t s).queue = s.queue ∧
    (handToWatch e w v t s).mem = s.mem ∧ (handToWatch e w v t s).ctl = s.ctl ∧ (handToWatch e w v t s).uPort = s.uPort ∧
    (handToWatch e w v t s).dPort = s.dPort ∧ (handToWatch e w v t s).ep = s.ep ∧ (handToWatch e w v t s).micros = s.micros ∧
    (handToWatch e w v t s).free = s.free ∧ (handToWatch e w v t s).pending = s.pending := by
  unfold handToWatch
  split <;> simp

@[simp] theorem handToSlot_keeps (b : Option (Fin 8)) (v : Sample) (t : Tick) (s : State) :
    (handToSlot b v t s).channels = s.channels ∧ (handToSlot b v t s).handing = s.handing ∧
    (handToSlot b v t s).watches = s.watches ∧ (handToSlot b v t s).mem = s.mem ∧ (handToSlot b v t s).uPort = s.uPort ∧
    (handToSlot b v t s).dPort = s.dPort ∧ (handToSlot b v t s).ep = s.ep ∧ (handToSlot b v t s).micros = s.micros ∧
    (handToSlot b v t s).free = s.free ∧ (handToSlot b v t s).pending = s.pending := by
  unfold handToSlot
  split <;> simp

@[simp] theorem takeTurn_keeps (s : State) :
    (takeTurn s).channels = s.channels ∧ (takeTurn s).mem = s.mem ∧ (takeTurn s).uPort = s.uPort ∧
    (takeTurn s).dPort = s.dPort ∧ (takeTurn s).ep = s.ep ∧ (takeTurn s).micros = s.micros ∧ (takeTurn s).free = s.free ∧
    (takeTurn s).pending = s.pending := by
  unfold takeTurn
  (repeat' split) <;> simp

@[simp] theorem takeTurns_keeps (n : Nat) (s : State) :
    (takeTurns n s).channels = s.channels ∧ (takeTurns n s).mem = s.mem ∧ (takeTurns n s).uPort = s.uPort ∧
    (takeTurns n s).dPort = s.dPort ∧ (takeTurns n s).ep = s.ep ∧ (takeTurns n s).micros = s.micros ∧
    (takeTurns n s).free = s.free ∧ (takeTurns n s).pending = s.pending := by
  induction n generalizing s with
  | zero => simp [takeTurns]
  | succ n ih => simp [takeTurns, ih]

@[simp] theorem finishHanding_keeps (s : State) :
    (finishHanding s).channels = s.channels ∧ (finishHanding s).mem = s.mem ∧ (finishHanding s).uPort = s.uPort ∧
    (finishHanding s).dPort = s.dPort ∧ (finishHanding s).ep = s.ep ∧ (finishHanding s).micros = s.micros ∧
    (finishHanding s).free = s.free ∧ (finishHanding s).pending = s.pending := by
  unfold finishHanding
  split <;> simp

@[simp] theorem takeFrame_keeps (e : Fin 64) (f : Frame) (s : State) :
    (takeFrame e f s).capture = s.capture ∧ (takeFrame e f s).queue = s.queue ∧ (takeFrame e f s).mem = s.mem ∧
    (takeFrame e f s).ctl = s.ctl ∧ (takeFrame e f s).notices = s.notices ∧ (takeFrame e f s).uPort = s.uPort ∧
    (takeFrame e f s).dPort = s.dPort ∧ (takeFrame e f s).link = s.link ∧ (takeFrame e f s).ep = s.ep ∧
    (takeFrame e f s).micros = s.micros ∧ (takeFrame e f s).free = s.free ∧ (takeFrame e f s).pending = s.pending := by
  unfold takeFrame
  dsimp only
  (repeat' split) <;> simp

@[simp] theorem offerToMap_keeps (f : Frame) (s : State) :
    (offerToMap f s).capture = s.capture ∧ (offerToMap f s).queue = s.queue ∧ (offerToMap f s).mem = s.mem ∧
    (offerToMap f s).ctl = s.ctl ∧ (offerToMap f s).notices = s.notices ∧ (offerToMap f s).uPort = s.uPort ∧
    (offerToMap f s).dPort = s.dPort ∧ (offerToMap f s).link = s.link ∧ (offerToMap f s).ep = s.ep ∧
    (offerToMap f s).micros = s.micros ∧ (offerToMap f s).free = s.free ∧ (offerToMap f s).pending = s.pending := by
  unfold offerToMap
  split <;> simp

/-! ## Requests -/

@[simp] theorem acceptRequest_keeps (i : Fin 4) (r : Request) (s : State) :
    (acceptRequest i r s).channels = s.channels ∧ (acceptRequest i r s).handing = s.handing ∧
    (acceptRequest i r s).watches = s.watches ∧ (acceptRequest i r s).slots = s.slots ∧
    (acceptRequest i r s).capture = s.capture ∧ (acceptRequest i r s).queue = s.queue ∧ (acceptRequest i r s).mem = s.mem ∧
    (acceptRequest i r s).ctl = s.ctl ∧ (acceptRequest i r s).notices = s.notices ∧ (acceptRequest i r s).uPort = s.uPort ∧
    (acceptRequest i r s).dPort = s.dPort ∧ (acceptRequest i r s).link = s.link ∧ (acceptRequest i r s).micros = s.micros ∧
    (acceptRequest i r s).free = s.free ∧ (acceptRequest i r s).pending = s.pending := by
  simp [acceptRequest]

@[simp] theorem refuseRequest_keeps (r : Request) (s : State) :
    (refuseRequest r s).channels = s.channels ∧ (refuseRequest r s).handing = s.handing ∧
    (refuseRequest r s).watches = s.watches ∧ (refuseRequest r s).slots = s.slots ∧ (refuseRequest r s).capture = s.capture ∧
    (refuseRequest r s).queue = s.queue ∧ (refuseRequest r s).mem = s.mem ∧ (refuseRequest r s).ctl = s.ctl ∧
    (refuseRequest r s).notices = s.notices ∧ (refuseRequest r s).uPort = s.uPort ∧ (refuseRequest r s).dPort = s.dPort ∧
    (refuseRequest r s).micros = s.micros ∧ (refuseRequest r s).free = s.free ∧ (refuseRequest r s).pending = s.pending := by
  unfold refuseRequest
  split <;> simp

@[simp] theorem checkFailure_keeps (r : Request) (s : State) :
    (checkFailure r s).channels = s.channels ∧ (checkFailure r s).handing = s.handing ∧
    (checkFailure r s).watches = s.watches ∧ (checkFailure r s).slots = s.slots ∧ (checkFailure r s).capture = s.capture ∧
    (checkFailure r s).queue = s.queue ∧ (checkFailure r s).mem = s.mem ∧ (checkFailure r s).ctl = s.ctl ∧
    (checkFailure r s).uPort = s.uPort ∧ (checkFailure r s).dPort = s.dPort ∧ (checkFailure r s).micros = s.micros ∧
    (checkFailure r s).free = s.free ∧ (checkFailure r s).pending = s.pending := by
  simp [checkFailure]

@[simp] theorem takeRequest_keeps (r : Request) (s : State) :
    (takeRequest r s).channels = s.channels ∧ (takeRequest r s).handing = s.handing ∧ (takeRequest r s).watches = s.watches ∧
    (takeRequest r s).slots = s.slots ∧ (takeRequest r s).capture = s.capture ∧ (takeRequest r s).queue = s.queue ∧
    (takeRequest r s).mem = s.mem ∧ (takeRequest r s).ctl = s.ctl ∧ (takeRequest r s).uPort = s.uPort ∧
    (takeRequest r s).dPort = s.dPort ∧ (takeRequest r s).micros = s.micros ∧ (takeRequest r s).free = s.free ∧
    (takeRequest r s).pending = s.pending := by
  unfold takeRequest
  (repeat' split) <;> simp

@[simp] theorem settle_keeps (i : Fin 4) (t : Taken) (r : Reply) (s : State) :
    (settle i t r s).channels = s.channels ∧ (settle i t r s).handing = s.handing ∧ (settle i t r s).watches = s.watches ∧
    (settle i t r s).slots = s.slots ∧ (settle i t r s).capture = s.capture ∧ (settle i t r s).mem = s.mem ∧
    (settle i t r s).notices = s.notices ∧ (settle i t r s).uPort = s.uPort ∧ (settle i t r s).dPort = s.dPort ∧
    (settle i t r s).micros = s.micros ∧ (settle i t r s).free = s.free ∧ (settle i t r s).pending = s.pending := by
  unfold settle
  split <;> simp

/-! ## Link -/

@[simp] theorem forwardU2D_keeps (f : Frame) (s : State) :
    (forwardU2D f s).channels = s.channels ∧ (forwardU2D f s).handing = s.handing ∧ (forwardU2D f s).watches = s.watches ∧
    (forwardU2D f s).slots = s.slots ∧ (forwardU2D f s).capture = s.capture ∧ (forwardU2D f s).queue = s.queue ∧
    (forwardU2D f s).mem = s.mem ∧ (forwardU2D f s).ctl = s.ctl ∧ (forwardU2D f s).uPort = s.uPort ∧
    (forwardU2D f s).dPort = s.dPort ∧ (forwardU2D f s).ep = s.ep ∧ (forwardU2D f s).micros = s.micros ∧
    (forwardU2D f s).free = s.free ∧ (forwardU2D f s).pending = s.pending := by
  unfold forwardU2D
  split <;> simp

@[simp] theorem forwardD2U_keeps (f : Frame) (s : State) :
    (forwardD2U f s).channels = s.channels ∧ (forwardD2U f s).handing = s.handing ∧ (forwardD2U f s).watches = s.watches ∧
    (forwardD2U f s).slots = s.slots ∧ (forwardD2U f s).capture = s.capture ∧ (forwardD2U f s).queue = s.queue ∧
    (forwardD2U f s).mem = s.mem ∧ (forwardD2U f s).ctl = s.ctl ∧ (forwardD2U f s).uPort = s.uPort ∧
    (forwardD2U f s).dPort = s.dPort ∧ (forwardD2U f s).ep = s.ep ∧ (forwardD2U f s).micros = s.micros ∧
    (forwardD2U f s).free = s.free ∧ (forwardD2U f s).pending = s.pending := by
  unfold forwardD2U
  split <;> simp

@[simp] theorem routeU_keeps (f : Frame) (s : State) :
    (routeU f s).capture = s.capture ∧ (routeU f s).queue = s.queue ∧ (routeU f s).mem = s.mem ∧ (routeU f s).ctl = s.ctl ∧
    (routeU f s).uPort = s.uPort ∧ (routeU f s).dPort = s.dPort ∧ (routeU f s).ep = s.ep ∧ (routeU f s).micros = s.micros ∧
    (routeU f s).free = s.free ∧ (routeU f s).pending = s.pending := by
  unfold routeU
  split <;> simp

@[simp] theorem routeD_keeps (f : Frame) (s : State) :
    (routeD f s).channels = s.channels ∧ (routeD f s).handing = s.handing ∧ (routeD f s).watches = s.watches ∧
    (routeD f s).slots = s.slots ∧ (routeD f s).capture = s.capture ∧ (routeD f s).queue = s.queue ∧
    (routeD f s).mem = s.mem ∧ (routeD f s).ctl = s.ctl ∧ (routeD f s).uPort = s.uPort ∧ (routeD f s).dPort = s.dPort ∧
    (routeD f s).micros = s.micros ∧ (routeD f s).free = s.free ∧ (routeD f s).pending = s.pending := by
  unfold routeD
  (repeat' split) <;> simp

@[simp] theorem route_keeps (p : Port) (f : Frame) (s : State) :
    (route p f s).capture = s.capture ∧ (route p f s).queue = s.queue ∧ (route p f s).mem = s.mem ∧
    (route p f s).ctl = s.ctl ∧ (route p f s).uPort = s.uPort ∧ (route p f s).dPort = s.dPort ∧
    (route p f s).micros = s.micros ∧ (route p f s).free = s.free ∧ (route p f s).pending = s.pending := by
  unfold route
  split <;> simp

@[simp] theorem chooseAt_keeps (p : Port) (s : State) :
    (chooseAt p s).channels = s.channels ∧ (chooseAt p s).handing = s.handing ∧ (chooseAt p s).watches = s.watches ∧
    (chooseAt p s).slots = s.slots ∧ (chooseAt p s).capture = s.capture ∧ (chooseAt p s).queue = s.queue ∧
    (chooseAt p s).mem = s.mem ∧ (chooseAt p s).ctl = s.ctl ∧ (chooseAt p s).notices = s.notices ∧
    (chooseAt p s).uPort = s.uPort ∧ (chooseAt p s).dPort = s.dPort ∧ (chooseAt p s).ep = s.ep ∧
    (chooseAt p s).micros = s.micros ∧ (chooseAt p s).free = s.free ∧ (chooseAt p s).pending = s.pending := by
  unfold chooseAt
  split <;> simp

@[simp] theorem goUp_keeps (p : Port) (x : PortState) (s : State) :
    (goUp p x s).channels = s.channels ∧ (goUp p x s).handing = s.handing ∧ (goUp p x s).watches = s.watches ∧
    (goUp p x s).slots = s.slots ∧ (goUp p x s).capture = s.capture ∧ (goUp p x s).queue = s.queue ∧
    (goUp p x s).mem = s.mem ∧ (goUp p x s).ctl = s.ctl ∧ (goUp p x s).ep = s.ep ∧ (goUp p x s).micros = s.micros ∧
    (goUp p x s).free = s.free ∧ (goUp p x s).pending = s.pending := by
  simp [goUp]

@[simp] theorem failSweep_keeps (p : Port) (x : PortState) (s : State) :
    (failSweep p x s).channels = s.channels ∧ (failSweep p x s).handing = s.handing ∧ (failSweep p x s).watches = s.watches ∧
    (failSweep p x s).slots = s.slots ∧ (failSweep p x s).capture = s.capture ∧ (failSweep p x s).queue = s.queue ∧
    (failSweep p x s).mem = s.mem ∧ (failSweep p x s).ctl = s.ctl ∧ (failSweep p x s).ep = s.ep ∧
    (failSweep p x s).micros = s.micros ∧ (failSweep p x s).free = s.free ∧ (failSweep p x s).pending = s.pending := by
  unfold failSweep
  dsimp only
  (repeat' split) <;> simp

@[simp] theorem judgeTap_keeps (p : Port) (x : PortState) (s : State) :
    (judgeTap p x s).channels = s.channels ∧ (judgeTap p x s).handing = s.handing ∧ (judgeTap p x s).watches = s.watches ∧
    (judgeTap p x s).slots = s.slots ∧ (judgeTap p x s).capture = s.capture ∧ (judgeTap p x s).queue = s.queue ∧
    (judgeTap p x s).mem = s.mem ∧ (judgeTap p x s).ctl = s.ctl ∧ (judgeTap p x s).ep = s.ep ∧
    (judgeTap p x s).micros = s.micros ∧ (judgeTap p x s).free = s.free ∧ (judgeTap p x s).pending = s.pending := by
  unfold judgeTap
  dsimp only
  (repeat' split) <;> simp

@[simp] theorem seekSymbol_keeps (p : Port) (y : Symbol) (s : State) :
    (seekSymbol p y s).channels = s.channels ∧ (seekSymbol p y s).handing = s.handing ∧
    (seekSymbol p y s).watches = s.watches ∧ (seekSymbol p y s).slots = s.slots ∧ (seekSymbol p y s).capture = s.capture ∧
    (seekSymbol p y s).queue = s.queue ∧ (seekSymbol p y s).mem = s.mem ∧ (seekSymbol p y s).ctl = s.ctl ∧
    (seekSymbol p y s).ep = s.ep ∧ (seekSymbol p y s).micros = s.micros ∧ (seekSymbol p y s).free = s.free ∧
    (seekSymbol p y s).pending = s.pending := by
  unfold seekSymbol
  dsimp only
  (repeat' split) <;> simp

@[simp] theorem lockedSymbol_keeps (p : Port) (y : Symbol) (s : State) :
    (lockedSymbol p y s).channels = s.channels ∧ (lockedSymbol p y s).handing = s.handing ∧
    (lockedSymbol p y s).watches = s.watches ∧ (lockedSymbol p y s).slots = s.slots ∧
    (lockedSymbol p y s).capture = s.capture ∧ (lockedSymbol p y s).queue = s.queue ∧ (lockedSymbol p y s).mem = s.mem ∧
    (lockedSymbol p y s).ctl = s.ctl ∧ (lockedSymbol p y s).ep = s.ep ∧ (lockedSymbol p y s).micros = s.micros ∧
    (lockedSymbol p y s).free = s.free ∧ (lockedSymbol p y s).pending = s.pending := by
  unfold lockedSymbol
  dsimp only
  (repeat' split) <;> simp

@[simp] theorem frameOctet_keeps (p : Port) (o : Octet) (f : RxFrame) (s : State) :
    (frameOctet p o f s).channels = s.channels ∧ (frameOctet p o f s).handing = s.handing ∧
    (frameOctet p o f s).watches = s.watches ∧ (frameOctet p o f s).slots = s.slots ∧
    (frameOctet p o f s).capture = s.capture ∧ (frameOctet p o f s).queue = s.queue ∧ (frameOctet p o f s).mem = s.mem ∧
    (frameOctet p o f s).ctl = s.ctl ∧ (frameOctet p o f s).ep = s.ep ∧ (frameOctet p o f s).micros = s.micros ∧
    (frameOctet p o f s).free = s.free ∧ (frameOctet p o f s).pending = s.pending := by
  unfold frameOctet
  (repeat' split) <;> simp

@[simp] theorem loseAlignment_keeps (p : Port) (s : State) :
    (loseAlignment p s).channels = s.channels ∧ (loseAlignment p s).handing = s.handing ∧
    (loseAlignment p s).watches = s.watches ∧ (loseAlignment p s).slots = s.slots ∧ (loseAlignment p s).capture = s.capture ∧
    (loseAlignment p s).queue = s.queue ∧ (loseAlignment p s).mem = s.mem ∧ (loseAlignment p s).ctl = s.ctl ∧
    (loseAlignment p s).ep = s.ep ∧ (loseAlignment p s).micros = s.micros ∧ (loseAlignment p s).free = s.free ∧
    (loseAlignment p s).pending = s.pending := by
  simp [loseAlignment]

@[simp] theorem frameEnd_keeps (p : Port) (f : RxFrame) (s : State) :
    (frameEnd p f s).capture = s.capture ∧ (frameEnd p f s).queue = s.queue ∧ (frameEnd p f s).mem = s.mem ∧
    (frameEnd p f s).ctl = s.ctl ∧ (frameEnd p f s).micros = s.micros ∧ (frameEnd p f s).free = s.free ∧
    (frameEnd p f s).pending = s.pending := by
  unfold frameEnd
  split <;> simp

@[simp] theorem assemble_keeps (p : Port) (y : Symbol) (s : State) :
    (assemble p y s).capture = s.capture ∧ (assemble p y s).queue = s.queue ∧ (assemble p y s).mem = s.mem ∧
    (assemble p y s).ctl = s.ctl ∧ (assemble p y s).micros = s.micros ∧ (assemble p y s).free = s.free ∧
    (assemble p y s).pending = s.pending := by
  unfold assemble
  split <;> simp

@[simp] theorem upSymbol_keeps (p : Port) (y : Symbol) (s : State) :
    (upSymbol p y s).capture = s.capture ∧ (upSymbol p y s).queue = s.queue ∧ (upSymbol p y s).mem = s.mem ∧
    (upSymbol p y s).ctl = s.ctl ∧ (upSymbol p y s).micros = s.micros ∧ (upSymbol p y s).free = s.free ∧
    (upSymbol p y s).pending = s.pending := by
  unfold upSymbol
  dsimp only
  (repeat' split) <;> simp

@[simp] theorem settleEarlier_keeps (p : Port) (y : Symbol) (s : State) :
    (settleEarlier p y s).channels = s.channels ∧ (settleEarlier p y s).mem = s.mem ∧ (settleEarlier p y s).uPort = s.uPort ∧
    (settleEarlier p y s).dPort = s.dPort ∧ (settleEarlier p y s).ep = s.ep ∧ (settleEarlier p y s).micros = s.micros ∧
    (settleEarlier p y s).free = s.free ∧ (settleEarlier p y s).pending = s.pending := by
  unfold settleEarlier
  split <;> simp

@[simp] theorem receiveSymbol_keeps (p : Port) (y : Symbol) (s : State) :
    (receiveSymbol p y s).mem = s.mem ∧ (receiveSymbol p y s).micros = s.micros ∧ (receiveSymbol p y s).free = s.free ∧
    (receiveSymbol p y s).pending = s.pending := by
  unfold receiveSymbol
  split <;> simp

/-! ## Ends of operations -/

@[simp] theorem burstWritten_keeps (l : List QueueEntry) (s : State) :
    (burstWritten l s).channels = s.channels ∧ (burstWritten l s).handing = s.handing ∧
    (burstWritten l s).watches = s.watches ∧ (burstWritten l s).slots = s.slots ∧ (burstWritten l s).capture = s.capture ∧
    (burstWritten l s).queue = s.queue ∧ (burstWritten l s).notices = s.notices ∧ (burstWritten l s).uPort = s.uPort ∧
    (burstWritten l s).dPort = s.dPort ∧ (burstWritten l s).link = s.link ∧ (burstWritten l s).ep = s.ep ∧
    (burstWritten l s).micros = s.micros ∧ (burstWritten l s).free = s.free ∧ (burstWritten l s).pending = s.pending := by
  simp [burstWritten]

@[simp] theorem sealAtEnd_keeps (i : Fin 8) (h : Half) (s : State) :
    (sealAtEnd i h s).channels = s.channels ∧ (sealAtEnd i h s).handing = s.handing ∧ (sealAtEnd i h s).watches = s.watches ∧
    (sealAtEnd i h s).mem = s.mem ∧ (sealAtEnd i h s).uPort = s.uPort ∧ (sealAtEnd i h s).dPort = s.dPort ∧
    (sealAtEnd i h s).ep = s.ep ∧ (sealAtEnd i h s).micros = s.micros ∧ (sealAtEnd i h s).free = s.free ∧
    (sealAtEnd i h s).pending = s.pending := by
  unfold sealAtEnd
  split <;> simp

@[simp] theorem endBurst_keeps (l : List QueueEntry) (s : State) :
    (endBurst l s).channels = s.channels ∧ (endBurst l s).handing = s.handing ∧ (endBurst l s).watches = s.watches ∧
    (endBurst l s).uPort = s.uPort ∧ (endBurst l s).dPort = s.dPort ∧ (endBurst l s).ep = s.ep ∧
    (endBurst l s).micros = s.micros ∧ (endBurst l s).free = s.free ∧ (endBurst l s).pending = s.pending := by
  unfold endBurst
  split <;> simp

@[simp] theorem endClosed_keeps (s : State) :
    (endClosed s).channels = s.channels ∧ (endClosed s).handing = s.handing ∧ (endClosed s).watches = s.watches ∧
    (endClosed s).slots = s.slots ∧ (endClosed s).capture = s.capture ∧ (endClosed s).queue = s.queue ∧
    (endClosed s).mem = s.mem ∧ (endClosed s).notices = s.notices ∧ (endClosed s).uPort = s.uPort ∧
    (endClosed s).dPort = s.dPort ∧ (endClosed s).link = s.link ∧ (endClosed s).ep = s.ep ∧ (endClosed s).micros = s.micros ∧
    (endClosed s).free = s.free ∧ (endClosed s).pending = s.pending := by
  simp [endClosed]

@[simp] theorem enterReady_keeps (x : MemState) (s : State) :
    (enterReady x s).channels = s.channels ∧ (enterReady x s).handing = s.handing ∧ (enterReady x s).watches = s.watches ∧
    (enterReady x s).slots = s.slots ∧ (enterReady x s).capture = s.capture ∧ (enterReady x s).queue = s.queue ∧
    (enterReady x s).mem = s.mem ∧ (enterReady x s).notices = s.notices ∧ (enterReady x s).uPort = s.uPort ∧
    (enterReady x s).dPort = s.dPort ∧ (enterReady x s).link = s.link ∧ (enterReady x s).ep = s.ep ∧
    (enterReady x s).micros = s.micros ∧ (enterReady x s).free = s.free ∧ (enterReady x s).pending = s.pending := by
  simp [enterReady]

@[simp] theorem enterHold_keeps (s : State) :
    (enterHold s).channels = s.channels ∧ (enterHold s).handing = s.handing ∧ (enterHold s).watches = s.watches ∧
    (enterHold s).slots = s.slots ∧ (enterHold s).capture = s.capture ∧ (enterHold s).queue = s.queue ∧
    (enterHold s).mem = s.mem ∧ (enterHold s).notices = s.notices ∧ (enterHold s).uPort = s.uPort ∧
    (enterHold s).dPort = s.dPort ∧ (enterHold s).link = s.link ∧ (enterHold s).ep = s.ep ∧ (enterHold s).micros = s.micros ∧
    (enterHold s).free = s.free ∧ (enterHold s).pending = s.pending := by
  simp [enterHold]

@[simp] theorem answerRead_keeps (i : Fin 4) (l : List MgmtWord) (s : State) :
    (answerRead i l s).channels = s.channels ∧ (answerRead i l s).handing = s.handing ∧
    (answerRead i l s).watches = s.watches ∧ (answerRead i l s).slots = s.slots ∧ (answerRead i l s).capture = s.capture ∧
    (answerRead i l s).queue = s.queue ∧ (answerRead i l s).mem = s.mem ∧ (answerRead i l s).ctl = s.ctl ∧
    (answerRead i l s).notices = s.notices ∧ (answerRead i l s).uPort = s.uPort ∧ (answerRead i l s).dPort = s.dPort ∧
    (answerRead i l s).micros = s.micros ∧ (answerRead i l s).free = s.free ∧ (answerRead i l s).pending = s.pending := by
  unfold answerRead
  split <;> simp

@[simp] theorem readDone_keeps (r : FetchRead) (l : List FetchRead) (s : State) :
    (readDone r l s).channels = s.channels ∧ (readDone r l s).handing = s.handing ∧ (readDone r l s).watches = s.watches ∧
    (readDone r l s).slots = s.slots ∧ (readDone r l s).capture = s.capture ∧ (readDone r l s).queue = s.queue ∧
    (readDone r l s).mem = s.mem ∧ (readDone r l s).notices = s.notices ∧ (readDone r l s).uPort = s.uPort ∧
    (readDone r l s).dPort = s.dPort ∧ (readDone r l s).link = s.link ∧ (readDone r l s).ep = s.ep ∧
    (readDone r l s).micros = s.micros ∧ (readDone r l s).pending = s.pending := by
  simp [readDone]

@[simp] theorem endRead_keeps (r : FetchRead) (l : List FetchRead) (s : State) :
    (endRead r l s).channels = s.channels ∧ (endRead r l s).handing = s.handing ∧ (endRead r l s).watches = s.watches ∧
    (endRead r l s).slots = s.slots ∧ (endRead r l s).capture = s.capture ∧ (endRead r l s).mem = s.mem ∧
    (endRead r l s).notices = s.notices ∧ (endRead r l s).uPort = s.uPort ∧ (endRead r l s).dPort = s.dPort ∧
    (endRead r l s).micros = s.micros ∧ (endRead r l s).pending = s.pending := by
  simp [endRead]

@[simp] theorem countWritten_keeps (a : MemAddr) (v : MemWord) (s : State) :
    (countWritten a v s).channels = s.channels ∧ (countWritten a v s).handing = s.handing ∧
    (countWritten a v s).watches = s.watches ∧ (countWritten a v s).slots = s.slots ∧
    (countWritten a v s).capture = s.capture ∧ (countWritten a v s).queue = s.queue ∧
    (countWritten a v s).notices = s.notices ∧ (countWritten a v s).uPort = s.uPort ∧ (countWritten a v s).dPort = s.dPort ∧
    (countWritten a v s).link = s.link ∧ (countWritten a v s).ep = s.ep ∧ (countWritten a v s).micros = s.micros ∧
    (countWritten a v s).free = s.free ∧ (countWritten a v s).pending = s.pending := by
  simp [countWritten]

/-! ## Transmissions and the microsecond step -/

@[simp] theorem freeHolder_keeps (x : DHolder) (s : State) :
    (freeHolder x s).channels = s.channels ∧ (freeHolder x s).handing = s.handing ∧ (freeHolder x s).watches = s.watches ∧
    (freeHolder x s).slots = s.slots ∧ (freeHolder x s).capture = s.capture ∧ (freeHolder x s).queue = s.queue ∧
    (freeHolder x s).mem = s.mem ∧ (freeHolder x s).ctl = s.ctl ∧ (freeHolder x s).uPort = s.uPort ∧
    (freeHolder x s).dPort = s.dPort ∧ (freeHolder x s).micros = s.micros ∧ (freeHolder x s).free = s.free ∧
    (freeHolder x s).pending = s.pending := by
  unfold freeHolder
  split <;> simp

@[simp] theorem clearDOut_keeps (s : State) :
    (clearDOut s).channels = s.channels ∧ (clearDOut s).handing = s.handing ∧ (clearDOut s).watches = s.watches ∧
    (clearDOut s).slots = s.slots ∧ (clearDOut s).capture = s.capture ∧ (clearDOut s).queue = s.queue ∧
    (clearDOut s).mem = s.mem ∧ (clearDOut s).ctl = s.ctl ∧ (clearDOut s).notices = s.notices ∧
    (clearDOut s).uPort = s.uPort ∧ (clearDOut s).dPort = s.dPort ∧ (clearDOut s).ep = s.ep ∧
    (clearDOut s).micros = s.micros ∧ (clearDOut s).free = s.free ∧ (clearDOut s).pending = s.pending := by
  simp [clearDOut]

@[simp] theorem clearUOut_keeps (s : State) :
    (clearUOut s).channels = s.channels ∧ (clearUOut s).handing = s.handing ∧ (clearUOut s).watches = s.watches ∧
    (clearUOut s).slots = s.slots ∧ (clearUOut s).capture = s.capture ∧ (clearUOut s).queue = s.queue ∧
    (clearUOut s).mem = s.mem ∧ (clearUOut s).ctl = s.ctl ∧ (clearUOut s).notices = s.notices ∧
    (clearUOut s).uPort = s.uPort ∧ (clearUOut s).dPort = s.dPort ∧ (clearUOut s).ep = s.ep ∧
    (clearUOut s).micros = s.micros ∧ (clearUOut s).free = s.free ∧ (clearUOut s).pending = s.pending := by
  simp [clearUOut]

@[simp] theorem tick_keeps (s : State) :
    (tick s).channels = s.channels ∧ (tick s).handing = s.handing ∧ (tick s).watches = s.watches ∧ (tick s).slots = s.slots ∧
    (tick s).capture = s.capture ∧ (tick s).queue = s.queue ∧ (tick s).mem = s.mem ∧ (tick s).ctl = s.ctl ∧
    (tick s).ep = s.ep ∧ (tick s).free = s.free ∧ (tick s).pending = s.pending := by
  simp [tick]

@[simp] theorem ticks_keeps (n : Nat) (s : State) :
    (ticks n s).channels = s.channels ∧ (ticks n s).handing = s.handing ∧ (ticks n s).watches = s.watches ∧
    (ticks n s).slots = s.slots ∧ (ticks n s).capture = s.capture ∧ (ticks n s).queue = s.queue ∧ (ticks n s).mem = s.mem ∧
    (ticks n s).ctl = s.ctl ∧ (ticks n s).ep = s.ep ∧ (ticks n s).free = s.free ∧ (ticks n s).pending = s.pending := by
  induction n generalizing s with
  | zero => simp [ticks]
  | succ n ih => simp [ticks, ih]

end Sys2Proof.Machine
end

