-- ==== Sys2Proof/Laws/Operations.lean ====
section
/-! SUPPORT. What each shared operation does, said once: the arbiters, the notice unit, the memory controller, the frame around every
execution, and the step. -/

namespace Sys2Proof.Machine

/-! ## Transmit arbiters (R160 to R162) -/

@[simp] theorem dChoose_link (s : State) :
    (dChoose s).link.u2d = s.link.u2d ∧ (dChoose s).link.d2u = s.link.d2u ∧ (dChoose s).link.uSending = s.link.uSending := by
  unfold dChoose
  split <;> simp

/-- A frame being sent goes on. -/
theorem dChoose_of_sending {s : State} (h : s.link.dSending ≠ none) : dChoose s = s := by
  simp [dChoose, h]

/-- A D port that is not UP begins nothing. -/
theorem dChoose_of_down {s : State} (h : s.dPort.receiver ≠ .up) : dChoose s = s := by
  simp [dChoose, h]

/-- An idle transmitter whose receiver is UP begins the arbiter's choice. -/
theorem dChoose_of_idle {s : State} (up : s.dPort.receiver = .up) (idle : s.link.dSending = none) :
    dChoose s = { s with link := { s.link with dSending := s.dCandidate } } := by
  simp [dChoose, up, idle]

/-- The choice reads the queue, the notice slot and the endpoint, and not the frame being sent. -/
@[simp] theorem dCandidate_withSending (s : State) (x : Option DSending) :
    State.dCandidate { s with link := { s.link with dSending := x } } = s.dCandidate := rfl

@[simp] theorem dCandidate_dChoose (s : State) : (dChoose s).dCandidate = s.dCandidate := by
  unfold dChoose
  split <;> rfl

/-- After a decision point nothing that waits is left behind an idle transmitter. -/
theorem dChoose_settled (s : State) (up : (dChoose s).dPort.receiver = .up) (idle : (dChoose s).link.dSending = none) :
    (dChoose s).dCandidate = none := by
  rw [dCandidate_dChoose]
  by_cases h : s.dPort.receiver = .up ∧ s.link.dSending = none
  · rw [dChoose_of_idle h.1 h.2] at idle
    exact idle
  · have e : dChoose s = s := by simp only [dChoose, if_neg h]
    rw [e] at up idle
    exact absurd ⟨up, idle⟩ h

@[simp] theorem uChoose_link (s : State) :
    (uChoose s).link.u2d = s.link.u2d ∧ (uChoose s).link.d2u = s.link.d2u ∧ (uChoose s).link.dSending = s.link.dSending := by
  unfold uChoose
  split <;> simp

/-! ## Notice unit (R132, R136) -/

@[simp] theorem built_keeps (u : NoticeUnit) (node : BitVec 6) (t : Micros) :
    (u.built node t).pending = u.pending ∧ (u.built node t).enable = u.enable ∧ (u.built node t).order = u.order ∧
      (u.built node t).express = u.express ∧ (u.built node t).holdoff = u.holdoff ∧
      (u.built node t).dispatchBase = u.dispatchBase ∧ (u.built node t).dispatchShift = u.dispatchShift ∧
      (u.built node t).timer = u.timer := by
  unfold NoticeUnit.built
  split <;> simp

theorem build_of_none {s : State} (h : s.notices.buildChoice s.ep.nodeAddress = none) : build s = s := by
  simp [build, h]

theorem build_of_some {s : State} {c : Fin 8} (h : s.notices.buildChoice s.ep.nodeAddress = some c) :
    build s = dChoose { s with notices := s.notices.built s.ep.nodeAddress s.micros } := by
  simp [build, h]

/-- The notice unit after a build, whether or not R136 allowed one. -/
theorem build_notices (s : State) : (build s).notices = s.notices.built s.ep.nodeAddress s.micros := by
  unfold build
  split
  · rename_i h
    simp [NoticeUnit.built, h]
  · simp

@[simp] theorem build_link (s : State) :
    (build s).link.u2d = s.link.u2d ∧ (build s).link.d2u = s.link.d2u ∧ (build s).link.uSending = s.link.uSending := by
  unfold build
  split <;> simp

theorem build_of_sending {s : State} (h : s.link.dSending ≠ none) : (build s).link = s.link := by
  unfold build
  split
  · rfl
  · rw [dChoose_of_sending (by exact h)]

@[simp] theorem raise_link (c : Fin 8) (n : Fin 32) (s : State) :
    (raise c n s).link.u2d = s.link.u2d ∧ (raise c n s).link.d2u = s.link.d2u ∧
      (raise c n s).link.uSending = s.link.uSending := by
  simp [raise]

/-- A raise adds its source to its class's pending set and touches no setting (R132). -/
theorem raise_notices (c : Fin 8) (n : Fin 32) (s : State) :
    (raise c n s).notices = (s.notices.withPending c n).built s.ep.nodeAddress s.micros := by
  simp [raise, build_notices]

@[simp] theorem raise_pending (c : Fin 8) (n : Fin 32) (s : State) :
    (raise c n s).notices.pending = s.notices.pending.set c (s.notices.pending[c] ||| (sourceBit n &&& classSources c)) := by
  simp [raise_notices, NoticeUnit.withPending]

/-- A full notice slot keeps a further notice from being built. -/
theorem buildChoice_of_full {u : NoticeUnit} (node : BitVec 6) (h : u.noticeSlot.isSome = true) : u.buildChoice node = none := by
  simp [NoticeUnit.buildChoice, h]

/-- After a build, no notice that R136 would build is left unbuilt. -/
theorem built_settled (u : NoticeUnit) (node : BitVec 6) (t : Micros) : (u.built node t).buildChoice node = none := by
  unfold NoticeUnit.built
  split
  · assumption
  · exact buildChoice_of_full node rfl

theorem build_settled (s : State) : (build s).notices.buildChoice (build s).ep.nodeAddress = none := by
  have ep : (build s).ep = s.ep := by simp
  rw [build_notices, ep]
  exact built_settled _ _ _

/-! ## Memory controller (R107 to R109) -/

/-- A choice of the memory arbiter begins an operation: it moves no state, read, timing, bank or timer. -/
@[simp] theorem beginWork_ctl (s : State) :
    (beginWork s).ctl.state = s.ctl.state ∧ (beginWork s).ctl.holdRequest = s.ctl.holdRequest ∧
      (beginWork s).ctl.written = s.ctl.written ∧ (beginWork s).ctl.effect = s.ctl.effect ∧
      (beginWork s).ctl.reads = s.ctl.reads ∧ (beginWork s).ctl.banks = s.ctl.banks ∧ (beginWork s).ctl.timer = s.ctl.timer := by
  unfold beginWork
  (repeat' split) <;> simp [beginBurst, beginCountWrite]

@[simp] theorem chooseMem_ctl (s : State) :
    (chooseMem s).ctl.state = s.ctl.state ∧ (chooseMem s).ctl.holdRequest = s.ctl.holdRequest ∧
      (chooseMem s).ctl.written = s.ctl.written ∧ (chooseMem s).ctl.effect = s.ctl.effect ∧
      (chooseMem s).ctl.reads = s.ctl.reads ∧ (chooseMem s).ctl.banks = s.ctl.banks ∧ (chooseMem s).ctl.timer = s.ctl.timer := by
  unfold chooseMem
  split <;> simp

@[simp] theorem workArrives_ctl (s : State) :
    (workArrives s).ctl.holdRequest = s.ctl.holdRequest ∧ (workArrives s).ctl.written = s.ctl.written ∧
      (workArrives s).ctl.reads = s.ctl.reads ∧ (workArrives s).ctl.banks = s.ctl.banks ∧
      (workArrives s).ctl.timer = s.ctl.timer := by
  unfold workArrives
  split <;> simp [beginExit]

/-- An operation on the port goes on: nothing else is begun. -/
theorem chooseMem_of_busy {s : State} (h : s.ctl.op ≠ none) : chooseMem s = s := by
  simp [chooseMem, h]

/-- Outside READY and ENTERING the arbiter begins nothing (R109). -/
theorem chooseMem_of_notServing {s : State} (h : s.ctl.state.serving = false) : chooseMem s = s := by
  simp [chooseMem, h]

/-- Work arriving at a busy port, outside HOLD, waits. -/
theorem workArrives_of_busy {s : State} (h : s.ctl.op ≠ none) (n : s.ctl.state ≠ .hold) : workArrives s = s := by
  simp [workArrives, n, chooseMem_of_busy h]

@[simp] theorem markDirty_of_off {s : State} (w : Fin 16) (h : s.capture.tableOn = false) : markDirty w s = s := by
  simp [markDirty, h]

/-- Setting a mark that is already set changes nothing (R115). -/
theorem setMark_of_set {s : State} (w : Fin 16) (h : s.ctl.dirty[w] = true) : setMark w s = s := by
  have : s.ctl.dirty.set w true = s.ctl.dirty := by
    apply Vector.ext
    intro k hk
    rw [Vector.getElem_set]
    split
    · rename_i e
      subst e
      exact h.symm
    · rfl
  simp [setMark, this]

theorem markDirty_of_set {s : State} (w : Fin 16) (h : s.ctl.dirty[w] = true) : markDirty w s = s := by
  simp [markDirty, h]

@[simp] theorem markQuietly_of_off {s : State} (w : Fin 16) (h : s.capture.tableOn = false) : markQuietly w s = s := by
  simp [markQuietly, h]

/-- In HOLD the mark of an ARM-SLOT is set and waits (R124, log entry 27). -/
theorem markQuietly_of_hold {s : State} (w : Fin 16) (on : s.capture.tableOn = true) (h : s.ctl.state = .hold) :
    markQuietly w s = setMark w s := by
  simp [markQuietly, on, chooseMem, setMark, h, MemState.serving]

/-- The entries a burst takes and the queue left are the queue (R101). -/
theorem takeRun_append (prev : QueueEntry) (n : Nat) (q : List QueueEntry) : (takeRun prev n q).1 ++ (takeRun prev n q).2 = q := by
  induction n generalizing prev q with
  | zero => simp [takeRun]
  | succ n ih =>
    cases q with
    | nil => simp [takeRun]
    | cons e rest =>
      simp only [takeRun]
      split
      · simp [ih]
      · rfl

theorem takeBurst_append (q : List QueueEntry) : (takeBurst q).1 ++ (takeBurst q).2 = q := by
  cases q with
  | nil => rfl
  | cons e rest => simp [takeBurst, takeRun_append]

theorem takeRun_shape (prev : QueueEntry) (n : Nat) (q : List QueueEntry) :
    (takeRun prev n q).1.length ≤ n ∧
      List.IsChain (fun a b : QueueEntry => b.slot = a.slot ∧ b.half = a.half ∧ b.position = a.position + 1)
        (prev :: (takeRun prev n q).1) := by
  induction n generalizing prev q with
  | zero => simp [takeRun]
  | succ n ih =>
    cases q with
    | nil => simp [takeRun]
    | cons e rest =>
      simp only [takeRun]
      split
      · rename_i h
        exact ⟨by simpa using (ih e rest).1, List.IsChain.cons_cons h (ih e rest).2⟩
      · simp

/-- A burst has the shape R101 gives it. -/
theorem takeBurst_shape {q : List QueueEntry} (h : q ≠ []) : burstShape (takeBurst q).1 := by
  cases q with
  | nil => exact absurd rfl h
  | cons e rest =>
    have := takeRun_shape e (Config.burstLimit - 1) rest
    refine ⟨by simp [takeBurst], ?_, by simpa [takeBurst] using this.2⟩
    simp only [takeBurst, List.length_cons]
    have := this.1
    simp only [Config.burstLimit] at this ⊢
    omega

/-! ## The frame around every execution (R165, R171 to R173) -/

/-- What an answer leaves: the response in the context, perhaps a frame begun at D-out, and nothing else. -/
theorem settle_answer (i : Fin 4) (t : Taken) (status : Status) (words : List MgmtWord) (s : State) :
    Responded s (settle i t (.answer status words) s) i t status words := by
  refine ⟨by simp [settle, State.setContext], ?_, ?_, ?_⟩
  · simp only [settle]
    obtain ⟨h1, h2, h3⟩ := dChoose_link (s.setContext i (answered t status words))
    simp only [setContext_link] at h1 h2 h3
    cases hl : s.link
    cases hd : (dChoose (s.setContext i (answered t status words))).link
    simp_all
  · intro h
    have : (s.setContext i (answered t status words)).link.dSending ≠ none := by simpa using h
    simp [settle, dChoose_of_sending this]
  · simp only [settle]
    unfold dChoose
    split <;> rfl

theorem execute_now {s : State} {i : Fin 4} {t : Taken} {form : Request → Bool} (run : Execution) (h : s.executesNow i t)
    (f : form t.request = true) :
    execute form run s = settle i t (run i t.request s).2 (run i t.request s).1 := by
  simp [execute, h.1, f, executeIn, h.2]

theorem execute_refused {s : State} {i : Fin 4} {t : Taken} {form : Request → Bool} {status : Status} (run : Execution)
    (h : s.nextExecution = some (i, t)) (r : s.ep.refuses t = some status) (f : form t.request = true) :
    execute form run s = settle i t (.answer status []) s := by
  simp [execute, h, f, executeIn, r]

theorem execute_otherForm {s : State} {i : Fin 4} {t : Taken} {form : Request → Bool} (run : Execution)
    (h : s.nextExecution = some (i, t)) (f : form t.request = false) : execute form run s = s := by
  simp [execute, h, f]

theorem execute_nothing {s : State} (form : Request → Bool) (run : Execution) (h : s.nextExecution = none) :
    execute form run s = s := by
  simp [execute, h]

/-- What an execution can come to. -/
theorem execute_cases (form : Request → Bool) (run : Execution) (s : State) :
    execute form run s = s ∨
      ∃ i t, s.nextExecution = some (i, t) ∧ form t.request = true ∧
        ((∃ status, execute form run s = settle i t (.answer status []) s) ∨
          (s.executesNow i t ∧ execute form run s = settle i t (run i t.request s).2 (run i t.request s).1)) := by
  cases h : s.nextExecution with
  | none => exact Or.inl (execute_nothing form run h)
  | some x =>
    obtain ⟨i, t⟩ := x
    cases f : form t.request with
    | false => exact Or.inl (execute_otherForm run h f)
    | true =>
      refine Or.inr ⟨i, t, rfl, f, ?_⟩
      cases r : s.ep.refuses t with
      | some status => exact Or.inl ⟨status, execute_refused run h r f⟩
      | none => exact Or.inr ⟨⟨h, r⟩, execute_now run ⟨h, r⟩ f⟩

/-- An owner that answers leaves the response in the context. -/
theorem execute_answers {s : State} {i : Fin 4} {t : Taken} {form : Request → Bool} {run : Execution} {u : State} {status : Status}
    {words : List MgmtWord} (h : s.executesNow i t) (f : form t.request = true)
    (r : run i t.request s = (u, .answer status words)) : Responded u (execute form run s) i t status words := by
  rw [execute_now run h f, r]
  exact settle_answer i t status words u

/-- The request that executes next is WAITING and no context is READING (R171). -/
theorem nextExecution_waiting {s : State} {i : Fin 4} {t : Taken} (h : s.nextExecution = some (i, t)) :
    s.context i = .waiting t ∧ ∀ j, (s.context j).isReading = false := by
  unfold State.nextExecution at h
  split at h
  · exact absurd h (by simp)
  · rename_i reading
    have reading : ∀ j, (s.context j).isReading = false := fun j => by
      simpa using fun k => reading (List.any_eq_true.mpr ⟨j, List.mem_finRange j, k⟩)
    split at h
    · exact absurd h (by simp)
    · split at h
      · rename_i j _ u hj
        simp only [Option.some.injEq, Prod.mk.injEq] at h
        exact ⟨h.1 ▸ h.2 ▸ hj, reading⟩
      all_goals exact absurd h (by simp)

/-! ## The step -/

theorem step_of_empty {s : State} (h : s.pending = []) : step s = .next (tick s) := by
  simp [step, h]

end Sys2Proof.Machine
end

