-- ==== Sys2Proof/Laws/Handing.lean ====
section
/-! SUPPORT. The handing on of a frame's samples: what one turn does, that every turn left leads to the same end, and that the turns
left of an entry whose watches and slot rest do nothing (R14, R15, R37). -/

namespace Sys2Proof.Machine

/-! ## Turns -/

@[simp] theorem takeTurn_of_none {s : State} (h : s.handing = none) : takeTurn s = s := by
  simp [takeTurn, h]

@[simp] theorem takeTurns_of_none {s : State} (n : Nat) (h : s.handing = none) : takeTurns n s = s := by
  induction n with
  | zero => rfl
  | succ n ih => rw [takeTurns, takeTurn_of_none h, ih]

theorem takeTurns_add (m n : Nat) (s : State) : takeTurns (m + n) s = takeTurns n (takeTurns m s) := by
  induction m generalizing s with
  | zero => simp [takeTurns]
  | succ m ih => rw [Nat.succ_add, takeTurns, takeTurns, ih]

/-- A watch's turn with the first sample left (R14). -/
theorem takeTurn_watch {s : State} {x : Handing} {v : Sample} {t : Tick} {later : List (Sample × Tick)} (h : s.handing = some x)
    (r : x.rest = (v, t) :: later) (w : x.turn < 32) :
    takeTurn s = handToWatch x.entry ⟨x.turn, w⟩ v t { s with handing := some { x with turn := x.turn + 1 } } := by
  simp [takeTurn, h, r, w, Handing.next]

/-- The bound slot's turn, after which the next sample follows (R14). -/
theorem takeTurn_slot {s : State} {x : Handing} {v : Sample} {t : Tick} {later : List (Sample × Tick)} (h : s.handing = some x)
    (r : x.rest = (v, t) :: later) (w : ¬ x.turn < 32) :
    takeTurn s = handToSlot x.bound v t { s with handing := x.next } := by
  simp [takeTurn, h, r, w]

/-- A turn moves the handing on and nothing else does. -/
theorem takeTurn_handing {s : State} {x : Handing} (h : s.handing = some x) (r : x.rest ≠ []) :
    (takeTurn s).handing = x.next := by
  obtain ⟨y, later, r⟩ := List.exists_cons_of_ne_nil r
  by_cases w : x.turn < 32
  · rw [takeTurn_watch h r w]
    simp [Handing.next, w]
  · rw [takeTurn_slot h r w]
    simp

/-- The turns left of a handing. -/
def Handing.left (x : Handing) : Nat :=
  33 * x.rest.length - min x.turn 32

/-- The turns left of the frame being handed on. -/
def State.turnsLeft (s : State) : Nat :=
  s.handing.elim 0 Handing.left

/-- Each turn leaves one less. -/
theorem turnsLeft_takeTurn {s : State} {x : Handing} (h : s.handing = some x) (r : x.rest ≠ []) :
    (takeTurn s).turnsLeft + 1 = s.turnsLeft ∧ ∀ y, (takeTurn s).handing = some y → y.rest ≠ [] := by
  obtain ⟨entry, bound, turn, rest⟩ := x
  obtain ⟨a, later, rfl⟩ := List.exists_cons_of_ne_nil r
  by_cases w : turn < 32
  · simp only [State.turnsLeft, takeTurn_handing h r, h, Handing.next, w, if_true, Option.elim_some, Handing.left,
      List.length_cons, Option.some.injEq]
    refine ⟨by omega, fun y e => ?_⟩
    subst e
    simp
  · cases later with
    | nil =>
      simp [State.turnsLeft, takeTurn_handing h r, h, Handing.next, w, Handing.left]
      omega
    | cons b l =>
      simp only [State.turnsLeft, takeTurn_handing h r, h, Handing.next, w, if_false, Option.elim_some, Handing.left,
        List.length_cons, List.tail_cons, Option.some.injEq]
      refine ⟨by omega, fun y e => ?_⟩
      subst e
      simp

/-- After as many turns as are left, none is left. -/
theorem takeTurns_done (n : Nat) (s : State) (k : ∀ x, s.handing = some x → x.rest ≠ []) (h : s.turnsLeft ≤ n) :
    (takeTurns n s).handing = none := by
  induction n generalizing s with
  | zero =>
    cases e : s.handing with
    | none => exact e
    | some x =>
      obtain ⟨a, l, r⟩ := List.exists_cons_of_ne_nil (k x e)
      simp [State.turnsLeft, e, Handing.left, r] at h
      omega
  | succ n ih =>
    cases e : s.handing with
    | none => rw [takeTurns_of_none _ e, e]
    | some x =>
      obtain ⟨one, more⟩ := turnsLeft_takeTurn e (k x e)
      exact ih _ more (by omega)

/-- Further turns change nothing. -/
theorem takeTurns_of_enough {m n : Nat} (s : State) (k : ∀ x, s.handing = some x → x.rest ≠ []) (h : s.turnsLeft ≤ m)
    (l : m ≤ n) : takeTurns n s = takeTurns m s := by
  obtain ⟨d, rfl⟩ := Nat.exists_eq_add_of_le l
  rw [takeTurns_add, takeTurns_of_none _ (takeTurns_done m s k h)]

/-! ## To the last turn -/

@[simp] theorem finishHanding_of_none {s : State} (h : s.handing = none) : finishHanding s = s := by
  simp [finishHanding, h]

@[simp] theorem finishHanding_handing (s : State) : (finishHanding s).handing = none := by
  unfold finishHanding
  split
  · assumption
  · rfl

/-- The turns left lead to the end, however many are given beyond them. -/
theorem finishHanding_of_enough {s : State} {x : Handing} {n : Nat} (h : s.handing = some x) (r : x.rest ≠ [])
    (l : x.left ≤ n) : finishHanding s = takeTurns n s := by
  have k : ∀ y, s.handing = some y → y.rest ≠ [] := fun y e => by
    rw [h] at e
    cases e
    exact r
  have left : s.turnsLeft = x.left := by simp [State.turnsLeft, h]
  have full : takeTurns (33 * x.rest.length) s = takeTurns x.left s :=
    takeTurns_of_enough s k (by omega) (by simp [Handing.left])
  have none := takeTurns_done x.left s k (by omega)
  simp only [finishHanding, h, Config.sampleTurns, full]
  rw [takeTurns_of_enough s k (m := x.left) (by omega) l]
  generalize takeTurns x.left s = t at none
  cases t
  cases none
  rfl

/-- A turn taken before the rest leads to the same end. -/
theorem finishHanding_takeTurn (s : State) : finishHanding (takeTurn s) = finishHanding s := by
  cases h : s.handing with
  | none => rw [takeTurn_of_none h]
  | some x =>
    by_cases r : x.rest = []
    · simp [takeTurn, h, r, finishHanding, takeTurns, Config.sampleTurns]
    · obtain ⟨one, more⟩ := turnsLeft_takeTurn h r
      have left : s.turnsLeft = x.left := by simp [State.turnsLeft, h]
      have pos : x.left = (takeTurn s).turnsLeft + 1 := by omega
      rw [finishHanding_of_enough h r (Nat.le_refl _), pos, takeTurns]
      cases k : (takeTurn s).handing with
      | none =>
        rw [finishHanding_of_none k, takeTurns_of_none _ k]
      | some y =>
        exact finishHanding_of_enough k (more y k) (by simp [State.turnsLeft, k])

/-! ## Watches and slots that rest (R15, R37) -/

/-- An OFF watch does nothing with a sample. -/
theorem onSample_off {x : Watch} (v : Sample) (t : Tick) (h : x.state = .off) : x.onSample v t = (x, false) := by
  unfold Watch.onSample Watch.levelMove Watch.crossingMove Watch.measuringMove
  simp only [h]
  split <;> rfl

@[simp] theorem setWatch_self (s : State) (w : Fin 32) : s.setWatch w (s.watch w) = s := by
  simp [State.setWatch, State.watch]

theorem watchSample_off {s : State} (w : Fin 32) (v : Sample) (t : Tick) (h : (s.watch w).state = .off) :
    watchSample w v t s = s := by
  simp [watchSample, onSample_off v t h]

theorem slotSample_idle {s : State} (i : Fin 8) (v : Sample) (t : Tick) (h : (s.slot i).live.state = .idle) :
    slotSample i v t s = s := by
  simp [slotSample, h]

/-- The watches that reference the entry are OFF and the slot it bound is IDLE. -/
def State.resting (s : State) (x : Handing) : Prop :=
  (∀ w, (s.watch w).config.channel = x.entry → (s.watch w).state = .off) ∧ ∀ i, x.bound = some i → (s.slot i).live.state = .idle

/-- A turn with watches and slot at rest moves the handing on and does nothing else. -/
theorem takeTurn_resting {s : State} {x : Handing} (h : s.handing = some x) (r : x.rest ≠ []) (q : s.resting x) :
    takeTurn s = { s with handing := x.next } := by
  obtain ⟨⟨v, t⟩, later, r⟩ := List.exists_cons_of_ne_nil r
  by_cases w : x.turn < 32
  · have n : x.next = some { x with turn := x.turn + 1 } := by simp [Handing.next, w]
    rw [takeTurn_watch h r w, n]
    unfold handToWatch
    split
    · rename_i e
      exact watchSample_off (s := { s with handing := some { x with turn := x.turn + 1 } }) _ v t (q.1 _ e)
    · rfl
  · rw [takeTurn_slot h r w]
    unfold handToSlot
    split
    · rename_i i e
      exact slotSample_idle (s := { s with handing := x.next }) i v t (q.2 i e)
    · rfl

theorem next_keeps {x y : Handing} (h : x.next = some y) : y.entry = x.entry ∧ y.bound = x.bound := by
  unfold Handing.next at h
  split at h
  · cases h
    exact ⟨rfl, rfl⟩
  · split at h
    · exact absurd h (by simp)
    · cases h
      exact ⟨rfl, rfl⟩

theorem takeTurns_resting (n : Nat) (s : State) (x : Handing) (h : s.handing = some x) (q : s.resting x)
    (k : x.rest ≠ []) : ∃ y, takeTurns n s = { s with handing := y } := by
  induction n generalizing s x with
  | zero => exact ⟨s.handing, rfl⟩
  | succ n ih =>
    rw [takeTurns, takeTurn_resting h k q]
    cases e : x.next with
    | none => exact ⟨none, takeTurns_of_none n rfl⟩
    | some y =>
      obtain ⟨en, bo⟩ := next_keeps e
      have more := (turnsLeft_takeTurn h k).2 y (by rw [takeTurn_handing h k, e])
      obtain ⟨z, hz⟩ := ih { s with handing := some y } y rfl ⟨fun w => en ▸ q.1 w, fun i => bo ▸ q.2 i⟩ more
      exact ⟨z, hz⟩

/-- R15: with the watches and the slot of the entry at rest, the turns left have no effect, and dropping them is handing them on. -/
theorem finishHanding_resting {s : State} {x : Handing} (h : s.handing = some x) (q : s.resting x) :
    finishHanding s = { s with handing := none } := by
  by_cases r : x.rest = []
  · simp [finishHanding, h, r, takeTurns]
  · obtain ⟨y, e⟩ := takeTurns_resting (Config.sampleTurns * x.rest.length) s x h q r
    simp [finishHanding, h, e]

end Sys2Proof.Machine
end

