-- ==== Sys2Proof/Laws/Memory.lean ====
section
/-! SUPPORT. The SDRAM list: every write keeps the canonical form, and a read after a write gives what was written. -/

namespace Sys2Proof.Machine

/-! ## Order along the list -/

/-- Every address of a list lies above a bound. -/
def cellsAbove (a : Nat) (l : List (Nat × MemWord)) : Prop :=
  ∀ c ∈ l, a < c.1

theorem risingCells_cons (a : Nat) (v : MemWord) (l : List (Nat × MemWord)) :
    risingCells ((a, v) :: l) = true ↔ cellsAbove a l ∧ risingCells l = true := by
  induction l generalizing a v with
  | nil => simp [risingCells, cellsAbove]
  | cons c rest ih =>
    obtain ⟨b, w⟩ := c
    rw [risingCells, Bool.and_eq_true, decide_eq_true_eq, ih b w]
    constructor
    · rintro ⟨hab, above, rising⟩
      refine ⟨fun c hc => ?_, above, rising⟩
      rcases List.mem_cons.mp hc with rfl | hc
      · exact hab
      · exact lt_trans hab (above c hc)
    · rintro ⟨above, rest⟩
      exact ⟨above (b, w) (List.mem_cons_self ..), rest⟩

theorem mem_writeCells {a : Nat} {v : MemWord} {l : List (Nat × MemWord)} {c : Nat × MemWord} (h : c ∈ writeCells a v l) :
    c.1 = a ∨ c ∈ l := by
  induction l with
  | nil => simp only [writeCells, List.mem_singleton] at h; exact Or.inl (by rw [h])
  | cons d rest ih =>
    obtain ⟨b, w⟩ := d
    simp only [writeCells] at h
    split at h
    · rcases List.mem_cons.mp h with rfl | h
      · exact Or.inl rfl
      · exact Or.inr h
    · split at h
      · rcases List.mem_cons.mp h with rfl | h
        · exact Or.inl rfl
        · exact Or.inr (List.mem_cons_of_mem _ h)
      · rcases List.mem_cons.mp h with rfl | h
        · exact Or.inr (List.mem_cons_self ..)
        · exact (ih h).imp id (List.mem_cons_of_mem _)

theorem rising_writeCells (a : Nat) (v : MemWord) (l : List (Nat × MemWord)) (h : risingCells l = true) :
    risingCells (writeCells a v l) = true := by
  induction l with
  | nil => rfl
  | cons d rest ih =>
    obtain ⟨b, w⟩ := d
    obtain ⟨above, rising⟩ := (risingCells_cons b w rest).mp h
    simp only [writeCells]
    split
    · rename_i hab
      refine (risingCells_cons a v _).mpr ⟨fun c hc => ?_, h⟩
      rcases List.mem_cons.mp hc with rfl | hc
      · exact hab
      · exact lt_trans hab (above c hc)
    · split
      · rename_i hab
        exact (risingCells_cons a v rest).mpr ⟨hab ▸ above, rising⟩
      · rename_i hlt hne
        refine (risingCells_cons b w _).mpr ⟨fun c hc => ?_, ih rising⟩
        rcases mem_writeCells hc with hc | hc
        · omega
        · exact above c hc

/-! ## Reads after writes -/

theorem readCells_writeCells (a : Nat) (v : MemWord) (l : List (Nat × MemWord)) : readCells a (writeCells a v l) = some v := by
  induction l with
  | nil => simp [writeCells, readCells]
  | cons d rest ih =>
    obtain ⟨b, w⟩ := d
    simp only [writeCells]
    split
    · simp [readCells]
    · split
      · simp [readCells]
      · rename_i hne
        simp [readCells, hne, ih]

theorem readCells_writeCells_ne {a b : Nat} (v : MemWord) (l : List (Nat × MemWord)) (h : b ≠ a) :
    readCells b (writeCells a v l) = readCells b l := by
  induction l with
  | nil => simp [writeCells, readCells, h]
  | cons d rest ih =>
    obtain ⟨c, w⟩ := d
    simp only [writeCells]
    split
    · simp [readCells, h]
    · split
      · rename_i hac
        simp [readCells, h, ← hac]
      · simp [readCells, ih]

@[simp] theorem read_write (m : Memory) (a : MemAddr) (v : MemWord) : (m.write a v).read a = some v := by
  simp [Memory.read, Memory.write, readCells_writeCells]

theorem read_write_ne (m : Memory) {a b : MemAddr} (v : MemWord) (h : b ≠ a) : (m.write a v).read b = m.read b := by
  have : b.toNat ≠ a.toNat := fun k => h (BitVec.eq_of_toNat_eq k)
  simp [Memory.read, Memory.write, readCells_writeCells_ne v m.cells this]

/-- The memory of a part just powered on has nothing listed. -/
@[simp] theorem read_empty (a : MemAddr) : Memory.read ⟨[]⟩ a = none := rfl

/-! ## The canonical form -/

theorem wf_empty : Memory.wf ⟨[]⟩ = true := rfl

theorem wf_write (m : Memory) (a : MemAddr) (v : MemWord) (h : m.wf = true) : (m.write a v).wf = true := by
  simp only [Memory.wf, Bool.and_eq_true, List.all_eq_true, decide_eq_true_eq] at h ⊢
  refine ⟨rising_writeCells _ _ _ h.1, fun c hc => ?_⟩
  rcases mem_writeCells hc with hc | hc
  · rw [hc]
    exact lt_of_lt_of_eq a.isLt rfl
  · exact h.2 c hc

theorem wf_writeBurst (m : Memory) (l : List QueueEntry) (h : m.wf = true) : (m.writeBurst l).wf = true := by
  unfold Memory.writeBurst
  induction l generalizing m with
  | nil => exact h
  | cons e l ih => exact ih _ (wf_write m e.address e.value h)

/-- A burst leaves alone every address none of its entries names. -/
theorem read_writeBurst_ne (m : Memory) (l : List QueueEntry) (a : MemAddr) (h : ∀ e ∈ l, e.address ≠ a) :
    (m.writeBurst l).read a = m.read a := by
  unfold Memory.writeBurst
  induction l generalizing m with
  | nil => rfl
  | cons e l ih =>
    rw [List.foldl_cons, ih _ fun x hx => h x (List.mem_cons_of_mem _ hx)]
    exact read_write_ne m e.value (h e (List.mem_cons_self ..)).symm

end Sys2Proof.Machine
end

