-- ==== Sys2Proof/Laws/Requests.lean ====
section
/-! SUPPORT. What the operand forms of a request give, which owner a WRITE reaches, and the whole-state form of what the shared
operations leave unchanged. -/

namespace Sys2Proof.Machine

/-! ## Bit fields -/

theorem bits_byte (w : MgmtWord) : bits w 0 8 = w.toNat % 256 := by
  simp [bits]

theorem bits_lt (w : MgmtWord) (lo width : Nat) : bits w lo width < 2 ^ width :=
  Nat.mod_lt _ (Nat.two_pow_pos _)

/-- A bit of a field of a word. -/
theorem testBit_bits (w : MgmtWord) (lo width k : Nat) :
    (bits w lo width).testBit k = (decide (k < width) && w.getLsbD (lo + k)) := by
  simp [bits, Nat.testBit_mod_two_pow, Nat.testBit_div_two_pow, BitVec.getLsbD, Nat.add_comm]

/-- A bit of a word that a field is placed in. -/
theorem getLsbD_place (lo width n k : Nat) (h : lo + width ≤ 32) :
    (place lo width n).getLsbD k = (decide (lo ≤ k) && decide (k < lo + width) && n.testBit (k - lo)) := by
  simp only [place, BitVec.getLsbD_ofNat]
  rw [← Nat.shiftLeft_eq, Nat.testBit_shiftLeft, Nat.testBit_mod_two_pow]
  by_cases h1 : lo ≤ k <;> by_cases h2 : k < lo + width
  · have h3 : k < 32 := by omega
    have h4 : k - lo < width := by omega
    simp [h1, h2, h3, h4]
  · have : ¬ k - lo < width := by omega
    simp [h1, h2, this]
  · simp [h1]
  · simp [h1]

/-! ## Tables as lists -/

theorem all_finRange {n : Nat} (p : Fin n → Bool) : (List.finRange n).all p = true ↔ ∀ i, p i = true := by
  simp [List.all_eq_true]

theorem any_finRange {n : Nat} (p : Fin n → Bool) : (List.finRange n).any p = true ↔ ∃ i, p i = true := by
  simp [List.any_eq_true]

theorem isSome_covered (r : Request) (n : Nat) : (r.covered n).isSome = true ↔ r.covered n ≠ none := by
  cases r.covered n <;> simp

/-! ## Command arguments (11.5) -/

theorem slotArg_of_large {a : MgmtWord} (h : 8 ≤ a.toNat % 256) : slotArg a = none := by
  simp [slotArg, bits_byte]
  omega

theorem slotArg_of_slot {a : MgmtWord} (j : Fin 8) (h : j.val = a.toNat % 256) : slotArg a = some j := by
  have := j.isLt
  simp only [slotArg, bits_byte]
  rw [dif_pos (by omega)]
  simp [Fin.ext_iff, h]

theorem watchArg_of_large {a : MgmtWord} (h : 32 ≤ a.toNat % 256) : watchArg a = none := by
  simp [watchArg, bits_byte]
  omega

theorem watchArg_of_watch {a : MgmtWord} (w : Fin 32) (h : w.val = a.toNat % 256) : watchArg a = some w := by
  have := w.isLt
  simp only [watchArg, bits_byte]
  rw [dif_pos (by omega)]
  simp [Fin.ext_iff, h]

/-! ## Which requests a row executes -/

theorem asksFor_of_runsCommand {code : Nat} {s : State} {i : Fin 4} {q : Taken} (h : s.runsCommand code i q) :
    q.request.asksFor code = true := by
  simp [Request.asksFor, h.2]

/-- A WRITE that R175 finds nothing against reaches its space's owner. -/
theorem runWrite_of_runsWrite {n : Nat} {s : State} {i : Fin 4} {q : Taken} (h : s.runsWrite n i q) :
    runWrite i q.request s = writeOwner q.request s ∧ q.request.space.toNat = n ∧ (q.request.op == opWrite) = true := by
  obtain ⟨_, sp, ck⟩ := h
  simp [Request.writesSpace] at sp
  simp [runWrite, ck, sp]

/-! ## Whole-state frames -/

/-- Two states with the same fields are one. -/
theorem State.ext_fields {s t : State} (channels : s.channels = t.channels) (handing : s.handing = t.handing) (watches : s.watches = t.watches)
    (slots : s.slots = t.slots) (capture : s.capture = t.capture) (queue : s.queue = t.queue) (mem : s.mem = t.mem)
    (ctl : s.ctl = t.ctl) (notices : s.notices = t.notices) (uPort : s.uPort = t.uPort) (dPort : s.dPort = t.dPort)
    (link : s.link = t.link) (ep : s.ep = t.ep) (micros : s.micros = t.micros) (free : s.free = t.free)
    (pending : s.pending = t.pending) : s = t := by
  cases s
  cases t
  simp_all

/-- A build may begin a frame at D-out and moves nothing else of the link. -/
theorem build_linkFrame (s : State) : { (build s).link with dSending := s.link.dSending } = s.link := by
  have := build_link s
  cases h : s.link
  cases k : (build s).link
  simp_all

/-- A build touches notices and the link alone. -/
theorem build_frame (s : State) : { build s with notices := s.notices, link := s.link } = s := by
  unfold build
  split
  · rfl
  · unfold dChoose
    split <;> rfl

/-- What raising a source of its class does. -/
theorem raise_only (c : Fin 8) (n : Fin 32) (s : State) (h : sourceBit n &&& classSources c = sourceBit n) :
    RaisedOnly c n s (raise c n s) := by
  refine ⟨?_, ?_, build_linkFrame { s with notices := s.notices.withPending c n },
    fun k => build_of_sending (s := { s with notices := s.notices.withPending c n }) k, ?_⟩
  · rw [raise_pending, h]
    rfl
  · rw [raise_notices, (built_keeps _ _ _).2.1]
    rfl
  · unfold raise build
    split
    · rfl
    · unfold dChoose
      split <;> rfl

/-- A choice of the memory arbiter touches the controller and the queue alone. -/
theorem chooseMem_frame (s : State) : { chooseMem s with ctl := s.ctl, queue := s.queue } = s := by
  unfold chooseMem beginWork
  (repeat' split) <;> rfl

theorem workArrives_frame (s : State) : { workArrives s with ctl := s.ctl, queue := s.queue } = s := by
  unfold workArrives
  split
  · rfl
  · exact chooseMem_frame s

theorem markDirty_frame (w : Fin 16) (s : State) : { markDirty w s with ctl := s.ctl, queue := s.queue } = s := by
  unfold markDirty
  split
  · exact congrArg (fun t : State => { t with ctl := s.ctl, queue := s.queue }) (workArrives_frame (setMark w s))
  · rfl

theorem markQuietly_frame (w : Fin 16) (s : State) : { markQuietly w s with ctl := s.ctl, queue := s.queue } = s := by
  unfold markQuietly
  split
  · exact congrArg (fun t : State => { t with ctl := s.ctl, queue := s.queue }) (chooseMem_frame (setMark w s))
  · rfl

theorem markAll_frame (s : State) : { markAll s with ctl := s.ctl, queue := s.queue } = s := by
  have := workArrives_frame { s with ctl := { s.ctl with dirty := Vector.replicate 16 true } }
  exact congrArg (fun t : State => { t with ctl := s.ctl, queue := s.queue }) this

/-- A step of the microsecond counter touches the counter, the ports' pauses, notices and the link alone. -/
theorem tick_frame (s : State) :
    { tick s with micros := s.micros, notices := s.notices, uPort := s.uPort, dPort := s.dPort, link := s.link } = s := by
  unfold tick build
  split
  · rfl
  · unfold dChoose
    split <;> rfl

end Sys2Proof.Machine
end

