-- ==== Sys2Proof/Tests/Slice0.lean ====
section
/-! SUPPORT. The model's own tests: ill-formed commands refused, the spec's worked values, one step of each kind, and for every
statement with hypotheses a state and operands that meet them, clause by clause. -/

namespace Sys2Proof.Tests

open Sys2Proof Sys2Proof.Machine

/-! ## Small states -/

/-- The state a command leaves. -/
def after (c : Instr) (s : State) : State :=
  match exec c s with
  | .next t => t
  | .fault _ => s
  | .refused _ => s

/-- A request with its check octet: op nibble, tag, space or code, index, count, address, data words, sent to node 0. -/
def request (op tag space index count address : Nat) (words : List MgmtWord) : Request :=
  let body : List Octet :=
    [0x20 + BitVec.ofNat 8 op, 0, BitVec.ofNat 8 tag, BitVec.ofNat 8 space] ++ octetsOf16 (BitVec.ofNat 16 index) ++
      [BitVec.ofNat 8 count] ++ (octetsOf32 (BitVec.ofNat 32 address)).tail ++ words.flatMap octetsOf32
  ⟨body.take 10 ++ [0] ++ body.drop 10 ++ [-(body.foldl (· + ·) 0)]⟩

/-- A taken COMMAND with a code and an argument. -/
def command (code : Nat) (argument : MgmtWord) : Taken :=
  ⟨request 3 7 code 0 0 0 [argument], 0⟩

/-- A taken WRITE to a space from an index. -/
def write (space index : Nat) (words : List MgmtWord) : Taken :=
  ⟨request 2 7 space index words.length 0 words, 0⟩

/-- A taken READ or FETCH. -/
def reading (op space index count address : Nat) : Taken :=
  ⟨request op 7 space index count address [], 0⟩

/-- The request stands WAITING in context 0. -/
def asking (q : Taken) (s : State) : State :=
  { s with ep := { s.ep with contexts := s.ep.contexts.set 0 (.waiting q), accepted := 1 } }

/-- The status context 0 answers with. -/
def answer (s : State) : Option Status :=
  match s.context 0 with
  | .answering _ r => some r.status
  | _ => none

/-- The status of the answer to a request that executes on a state. -/
def statusOf (c : Instr) (q : Taken) (s : State) : Option Status :=
  answer (after c (asking q s))

/-- Entry 3 takes source 5 with interval 10 and binds slot 2. -/
def mapped (s : State) : State :=
  s.setChannel 3
    { valid := true, sourceId := 5, interval := 10, bound := some 2, sync := .unsynced, expected := 0, lastTimestamp := 0 }

/-- Slot 2 of 512 positions, recording on half A in a state, its post target 2. -/
def recordingIn (state : SlotState) (writePos filled : Nat) (s : State) : State :=
  s.setSlot 2
    { config := { base := 1024, size := 512, pre := 4, post := 2, early := 1, retrigger := .ignore, full := .stop }
      live :=
        { state := state, active := some .a, writePos := writePos, postTarget := if state = .post then 2 else 0,
          firstPostPending := false, earlyRaised := false, lastStored := 0 }
      recA := { CaptureRecord.cleared .active with filled := filled }
      recB := CaptureRecord.cleared .empty }

/-- A port whose receiver is UP. -/
def upPort (frame : Option RxFrame) (invalidRun : Nat) : PortState :=
  { PortState.reset with receiver := .up, validRun := 8, invalidRun := invalidRun, frame := frame }

/-- A memory controller in a state with an operation on its port, the timing set of power-on reset in effect. -/
def memoryIn (state : MemState) (op : Option PortOp) (s : State) : State :=
  { s with ctl := { s.ctl with
      state := state, op := op, holdRequest := decide (state = .entering), timer := ⟨state.serving, 1560⟩ } }

/-- Slot 2 IDLE and bound, its halves in two states. -/
def halvesIn (a b : HalfState) (full : FullPolicy) : State :=
  let s := memoryIn .ready none (mapped State.reset)
  { s.setSlot 2
      { Slot.reset with
        config := { SlotConfig.reset with full := full }, recA := CaptureRecord.cleared a, recB := CaptureRecord.cleared b } with
    capture := { CaptureUnit.reset with index := if a = .full then [(2, .a)] else [] } }

/-! ## Well-formed commands -/

theorem test_wellFormed_accepts :
    (Instr.tapValue .u (List.replicate 16 .idle)).wellFormed = true ∧ (Instr.receiverUp .d (.data 3)).wellFormed = true ∧
      (Instr.lossOfAlignment .u .invalid).wellFormed = true := by decide

theorem test_wellFormed_refuses_noSymbol : (Instr.tapValue .u []).wellFormed = false := by decide

theorem test_wellFormed_refuses_seventeenSymbols : (Instr.tapValue .u (List.replicate 17 .idle)).wellFormed = false := by decide

theorem test_wellFormed_refuses_upOnStart : (Instr.receiverUp .u .startFrame).wellFormed = false := by decide

theorem test_wellFormed_refuses_lossOnIdle : (Instr.lossOfAlignment .d .idle).wellFormed = false := by decide

theorem test_noWordSpellsACommand : decodeTableWord 8 0 = none := by decide

/-! ## Worked values of the spec -/

/-- The check value of the CRC: the octets of "123456789" give 29B1h (11.2). -/
theorem test_crcCheckValue : crc16 [0x31, 0x32, 0x33, 0x34, 0x35, 0x36, 0x37, 0x38, 0x39] = 0x29B1 := by decide +kernel

/-- The READ of 11.3: octets that sum to 3Ch take the check octet C4h. -/
theorem test_checkOctet :
    Request.checkSum ⟨[0x21, 0x05, 0x02, 0x04, 0, 0, 0x10, 0, 0, 0, 0, 0xC4]⟩ = 0 ∧
      Request.lengthFits ⟨[0x21, 0x05, 0x02, 0x04, 0, 0, 0x10, 0, 0, 0, 0, 0xC4]⟩ = true := by decide

theorem test_orderListResetWord : spaceWord State.reset 5 17 = 0x62145307 := by decide

theorem test_timingResetWords : spaceWord State.reset 6 2 = 1560 ∧ spaceWord State.reset 6 3 = 0x06030303 := by decide

/-- The two dispatch values worked in 8.4. -/
theorem test_dispatchValues : dispatchValue 0x8000 2 0 3 = 0x800C ∧ dispatchValue 0xF000 7 7 2 = 0x6100 := by decide

/-- Address 9256 is column 40 of bank 2, row 4; 2048 begins row 1 of bank 0 (R104). -/
theorem test_addressParts :
    columnOf 9256 = 40 ∧ bankOf 9256 = 2 ∧ rowOf 9256 = 4 ∧ bankOf 2048 = 0 ∧ rowOf 2048 = 1 := by decide

/-- The start position of a trigger at write position 300 with 50 pre samples, and of one whose history wraps (R66, 12). -/
theorem test_startPositions : ringSub 300 50 512 = 250 ∧ ringSub 3 50 512 = 465 := by decide

theorem test_packedWords : packWords [0x1111, 0x2222, 0x3333] = [0x22221111#32, 0x00003333#32] := by decide

theorem test_frameSymbols : frameSymbols [0x41] = [.startFrame, .data 0x41, .endFrame] := by decide

/-! ## One step of each kind -/

theorem test_emptyQueueSteps : (match step State.reset with | .next t => t.micros | _ => 0) = 1 := by decide

/-- MEM-START, then the end of the sequence it begins (R119, R120). -/
theorem test_memoryStarts :
    statusOf .memStart (command 10 0) State.reset = some .ok ∧
      (after .initSequenceEnd (memoryIn .init (some .initSequence) State.reset)).ctl.state = .ready := by decide

theorem test_secondMemStartIsRefused :
    statusOf .memStart (command 10 0) (memoryIn .ready none State.reset) = some .wrongState := by decide

/-- A row whose request is not the one that waits changes nothing (log entry 1). -/
theorem test_otherRowDoesNothing : after .memHold (asking (command 10 0) State.reset) = asking (command 10 0) State.reset := rfl

/-- ARM-SLOT of an unbound slot and of a bound one before MEM-START (R58). -/
theorem test_armChecks :
    statusOf .armSlot (command 1 2) State.reset = some .badValue ∧
      statusOf .armSlot (command 1 2) (mapped State.reset) = some .notReady := by decide

theorem test_armTakesHalfA :
    (after .armSlot (asking (command 1 2) (memoryIn .ready none (mapped State.reset)))).slot 2 =
      { Slot.reset with
        live := { SlotLive.cleared .armed with active := some .a }, recA := CaptureRecord.cleared .active } := by decide

/-- A sample at the last position wraps the write position (R61). -/
theorem test_writePositionWraps :
    ((slotSample 2 7 90 (recordingIn .armed 511 512 State.reset)).slot 2).live.writePos = 0 ∧
      ((slotSample 2 7 90 (recordingIn .armed 511 512 State.reset)).record 2 .a).filled = 512 ∧
      (slotSample 2 7 90 (recordingIn .armed 511 512 State.reset)).queue = [⟨2, .a, 511, 7, 1535⟩] := by decide

/-- An ABOVE watch with Q = 2 fires on the second true sample in a row (R26). -/
theorem test_qualifyCounts :
    let x : Watch := { Watch.reset with config := { WatchConfig.reset with qualify := 2 }, state := .clear }
    (x.onSample 5 10).1.state = .qualifying ∧ (x.onSample 5 10).2 = false ∧
      ((x.onSample 5 10).1.onSample 6 20).1.state = .asserted ∧ ((x.onSample 5 10).1.onSample 6 20).2 = true := by decide

/-- A measurement across the wrap of the tick counter (R48). -/
theorem test_widthAcrossTheWrap :
    let x : Watch :=
      { Watch.reset with
        config := { WatchConfig.reset with kind := .width, windowMax := 100 }, state := .measuring, startTime := 0xFFFFFFF0 }
    (x.onSample 0xFFFF 0x10).1.lastResult = .result 32 ∧ (x.onSample 0xFFFF 0x10).2 = false := by decide

/-- GATE with its two values and a third (R76). -/
theorem test_gate :
    (after .gate (asking (command 7 0) State.reset)).capture.gateOpen = false ∧
      statusOf .gate (command 7 1) State.reset = some .ok ∧ statusOf .gate (command 7 2) State.reset = some .badValue := by decide

/-- A raised and enabled source is announced at once, and its notice names it (R132, R136, R137). -/
theorem test_noticeIsBuilt :
    let u := { NoticeUnit.reset with enable := NoticeUnit.reset.enable.set 7 0x7 }
    let t := raise classFault srcCheckFault { State.reset with notices := u }
    t.notices.noticeSlot.map (fun n => (n.cls, n.sources, n.dispatch)) = some (7, 1, 0xE0) ∧
      t.notices.announcedFlag 7 = true ∧ t.notices.alert = true := by decide

/-- What is written to SDRAM is read back, and a word never written is a free value (R113, log entry 5). -/
theorem test_fetchWords (m : Memory) (a : MemAddr) (v : MemWord) : (m.write a v).fetchWords 0 a 1 = [v] := by
  simp [Memory.fetchWords]

/-! ## Hypotheses that can be met: the step and what every step keeps -/

/-- A mapped channel, slot 2 recording, the memory READY. -/
def busy : State :=
  memoryIn .ready none (mapped (recordingIn .armed 0 0 State.reset))

theorem test_hyp_StepRunsTheFrontCommand :
    ({ busy with pending := [.memStart, .read] } : State).pending = Instr.memStart :: [.read] := rfl

theorem test_hyp_EmptyQueueLetsOneMicrosecondPass : busy.pending = [] ∧ (busy.port .d).pauseLeft = none := by decide

/-- A step of `busy` answers a next state: the second hypothesis of every statement of what steps keep. -/
theorem test_hyp_step : ∃ t, step busy = .next t :=
  ⟨_, rfl⟩

theorem test_hyp_StepKeepsMemoryAndQueues : busy.memoryCanonical ∧ busy.withinCapacity :=
  ⟨rfl, by unfold State.withinCapacity; decide⟩

theorem busy_activeAgrees (i : Fin 8) : (busy.slot i).activeAgrees := by
  have recording : ∀ i : Fin 8, ((busy.slot i).live.state = .armed ∨ (busy.slot i).live.state = .post) ↔
      (busy.slot i).live.active.isSome = true := by decide
  have live : ∀ i : Fin 8, ¬ ((busy.slot i).live.state = .armed ∨ (busy.slot i).live.state = .post) →
      (busy.slot i).live = SlotLive.cleared (busy.slot i).live.state := by decide
  have a : ∀ i : Fin 8, (((busy.slot i).record .a).state = .active ↔ (busy.slot i).live.active = some .a) ∧
      (((busy.slot i).record .a).state = .empty → (busy.slot i).record .a = CaptureRecord.cleared .empty) := by decide
  have b : ∀ i : Fin 8, (((busy.slot i).record .b).state = .active ↔ (busy.slot i).live.active = some .b) ∧
      (((busy.slot i).record .b).state = .empty → (busy.slot i).record .b = CaptureRecord.cleared .empty) := by decide
  exact ⟨recording i, live i, fun h => match h with | .a => a i | .b => b i⟩

theorem test_hyp_StepKeepsHalvesAndIndex : busy.captureAgrees := by
  have a : ∀ i : Fin 8, (busy.record i .a).state ≠ .full := by decide
  have b : ∀ i : Fin 8, (busy.record i .b).state ≠ .full := by decide
  refine ⟨busy_activeAgrees, by decide, fun i h => ⟨fun k => absurd k (by simp [busy, memoryIn, mapped, recordingIn, State.reset,
    State.powerOn, CaptureUnit.reset, State.setChannel, State.setSlot]), fun k => ?_⟩⟩
  cases h
  · exact absurd k (a i)
  · exact absurd k (b i)

theorem test_hyp_StepKeepsCapturesWithinHalves : busy.slotsAgree := by
  have c : ∀ i : Fin 8, (busy.slot i).config.valid = true ∧ (busy.slot i).live.writePos < (busy.slot i).config.size := by decide
  have a : ∀ i : Fin 8, ((busy.slot i).record .a).filled ≤ (busy.slot i).config.size ∧
      ((busy.slot i).record .a).state.holdsCapture = false := by decide
  have b : ∀ i : Fin 8, ((busy.slot i).record .b).filled ≤ (busy.slot i).config.size ∧
      ((busy.slot i).record .b).state.holdsCapture = false := by decide
  have post : ∀ i : Fin 8, (busy.slot i).live.state ≠ .post := by decide
  refine fun i => ⟨busy_activeAgrees i, (c i).1, (c i).2, fun h => ?_, fun h k => ?_, fun k => absurd k (post i)⟩
  · cases h
    · exact (a i).1
    · exact (b i).1
  · cases h
    · rw [(a i).2] at k
      exact absurd k (by decide)
    · rw [(b i).2] at k
      exact absurd k (by decide)

theorem test_hyp_memoryAgrees : busy.memoryAgrees := by
  refine ⟨⟨by decide, fun m h => absurd (Option.isSome_of_mem h) (by decide)⟩, rfl, ⟨by decide, fun h => absurd h (by decide), fun _ _ => rfl⟩, fun l h =>
    absurd h ?_⟩
  simp [busy, memoryIn, mapped, recordingIn, State.setChannel, State.setSlot]

theorem test_hyp_StepLeavesNoWorkAtAFreePort : busy.memoryAgrees ∧ busy.portBusy :=
  ⟨test_hyp_memoryAgrees, fun _ _ => by decide, fun h => absurd h (by decide), fun h => absurd h (by decide)⟩

theorem test_hyp_StepKeepsSealingHalvesWaiting : busy.memoryAgrees ∧ busy.sealingWaits := by
  have a : ∀ i : Fin 8, (busy.record i .a).state ≠ .sealing := by decide
  have b : ∀ i : Fin 8, (busy.record i .b).state ≠ .sealing := by decide
  refine ⟨test_hyp_memoryAgrees, fun i h k => ?_⟩
  cases h
  · exact absurd k (a i)
  · exact absurd k (b i)

theorem test_hyp_StepKeepsWatches : busy.watchesAgree := by
  have all : ∀ w : Fin 32, (busy.watch w).config.constrained = true ∧ 1 ≤ (busy.watch w).config.qualify ∧
      (busy.watch w).config.qualify ≤ 255 ∧ (busy.watch w).state = .off ∧ (busy.watch w).progress = 0 ∧
      (busy.watch w).startTime = 0 ∧ (busy.watch w).phase = .away := by decide
  intro w
  obtain ⟨h1, h2, h3, h4, h5, h6, h7⟩ := all w
  exact ⟨h1, h2, h3, fun k => absurd (h4.symm.trans k) (by decide), fun _ => h5, fun _ => ⟨h6, h7⟩⟩

/-- `busy` with a refresh on the port and two samples of entry 3's frame still on their way, the next turn that of a watch, or at 32 the slot's. -/
def onItsWay (turn : Nat) : State :=
  { memoryIn .ready (some .refresh) busy with handing := some ⟨3, some 2, turn, [(11, 100), (12, 110)]⟩ }

theorem test_hyp_StepKeepsTheChannelMap : (onItsWay 32).mapAgrees := by
  have one : ∀ e : Fin 64, ((onItsWay 32).channel e).valid = true → e = 3 := by decide
  have off : ∀ w : Fin 32, ((onItsWay 32).watch w).state = .off := by decide
  have idle : ∀ i : Fin 8, ((onItsWay 32).slot i).live.state ≠ .idle → i = 2 := by decide
  refine ⟨fun e f ne he hf => absurd ((one e he).trans (one f hf).symm) ne, fun x h => ?_, fun w h => absurd (off w) h,
    fun i h => ?_⟩
  · simp only [onItsWay, Option.some.injEq] at h
    subst h
    decide
  · rw [idle i h]
    exact ⟨3, by decide, by decide⟩

theorem test_hyp_StepKeepsTheNoticeUnit : busy.noticesAgree ∧ busy.noticeBuilt :=
  ⟨⟨by decide, by decide, by decide, fun n h => absurd h (by simp [busy, memoryIn, mapped, recordingIn, State.setChannel,
    State.setSlot, State.reset, State.powerOn, NoticeUnit.reset])⟩, by unfold State.noticeBuilt; decide⟩

theorem test_hyp_StepLeavesNoFrameAtAnIdleTransmitter : busy.transmitBusy :=
  ⟨fun h => absurd h (by decide), fun h => absurd h (by decide)⟩

theorem test_hyp_StepKeepsTheEndpoint : busy.endpointAgrees := by
  have free : ∀ i : Fin 4, busy.context i = .free := by decide
  refine ⟨⟨fun x h => ?_, fun f h => ?_⟩, ⟨fun i n h => ?_, fun i j n h => ?_⟩, by decide, fun i => ?_⟩
  · exact absurd h (by simp [busy, memoryIn, mapped, recordingIn, State.setChannel, State.setSlot, State.reset, State.powerOn,
      LinkState.reset])
  · exact absurd h (by simp [busy, memoryIn, mapped, recordingIn, State.setChannel, State.setSlot, State.reset, State.powerOn,
      LinkState.reset])
  · rw [free i] at h
    exact absurd h (by simp [Context.order])
  · rw [free i] at h
    exact absurd h (by simp [Context.order])
  · rw [free i]
    simp [Context.isReading, busy, memoryIn, mapped, recordingIn, State.setChannel, State.setSlot, State.reset, State.powerOn,
      MemCtl.reset]

/-! ## Hypotheses that can be met: the link -/

/-- A port sweeping at a tap with 15 TRAIN symbols of one marker observed. -/
def sweepAt (tap : BitVec 6) (previous : Option TapValue) (failures : Nat) (marker : Bool) : PortState :=
  { PortState.reset with
    tap := tap, previous := previous, failures := failures, observed := List.replicate 15 (.train marker false) }

/-- The five outcomes: the lock at tap 1, no lock at taps 0 and 62, and the failed sweeps of the two ports. -/
theorem test_hyp_TapValueLocksAdvancesOrFails :
    (sweepAt 1 (some .zero) 0 true).receiver = .seek ∧ (sweepAt 1 (some .zero) 0 true).sweep = .sweeping ∧
      ((sweepAt 1 (some .zero) 0 true).observed ++ [Symbol.train true false]).length = 16 ∧
      (after (.tapValue .u [.train true false]) { State.reset with uPort := sweepAt 1 (some .zero) 0 true }).uPort.receiver =
        .locked ∧
      (after (.tapValue .u [.train true false]) { State.reset with uPort := sweepAt 0 none 0 true }).uPort.tap = 1 ∧
      (after (.tapValue .u [.idle]) { State.reset with uPort := sweepAt 62 (some .zero) 0 true }).uPort.tap = 63 ∧
      (after (.tapValue .d [.idle]) { State.reset with dPort := sweepAt 63 none 255 true }).dPort.failures = 255 ∧
      (after (.tapValue .u [.idle]) { State.reset with uPort := sweepAt 63 none 1 true }).uPort.sweep = .pausing 1000 ∧
      (after (.tapValue .u [.idle]) { State.reset with uPort := sweepAt 63 none 2 true }).uPort.receiver = .failed := by decide

theorem test_hyp_PauseAndHoldoffRunOut :
    (PortState.reset.paused.receiver = .seek ∧ PortState.reset.paused.sweep = .pausing 1000) ∧
      ({ State.reset with notices := { NoticeUnit.reset with timer := ⟨true, 1⟩ } } : State).noticeBuilt :=
  ⟨by decide, by unfold State.noticeBuilt; decide⟩

/-- A LOCKED port with the two runs given. -/
def lockedPort (validRun invalidRun : Nat) : PortState :=
  { PortState.reset with receiver := .locked, validRun := validRun, invalidRun := invalidRun }

theorem test_hyp_LockedReceiverCountsItsRuns :
    (lockedPort 6 14).receiver = .locked ∧ (lockedPort 6 14).validRun < 7 ∧ (lockedPort 6 14).invalidRun < 15 ∧
      (lockedPort 0 15).invalidRun = 15 ∧
      (after (.lockedSymbol .u .invalid) { State.reset with uPort := lockedPort 6 14 }).uPort = lockedPort 0 15 ∧
      (after (.tapProvedFalse .u) { State.reset with uPort := lockedPort 0 15 }).uPort.receiver = .seek := by decide

theorem test_hyp_EighthValidSymbolBringsThePortUp :
    (lockedPort 7 0).receiver = .locked ∧ (lockedPort 7 0).validRun = 7 ∧ (Symbol.train false true).countsValid = true ∧
      (after (.receiverUp .d .idle) { State.reset with dPort := lockedPort 7 0 }).dPort.receiver = .up := by decide

theorem test_hyp_UpReceiverAssemblesFrames :
    (upPort none 14).receiver = .up ∧ (upPort none 14).invalidRun < 15 ∧ (upPort none 14).frame = none ∧
      (upPort (some ⟨List.replicate 77 0, false⟩) 0).frame = some ⟨List.replicate 77 0, false⟩ ∧
      (List.replicate 77 (0 : Octet)).length < 78 := by decide

theorem test_hyp_OversizeFrameIsMarkedAndDiscarded :
    (List.replicate 78 (0 : Octet)).length = 78 ∧
      (after (.oversizeFrame .u 1) { State.reset with uPort := upPort (some ⟨List.replicate 78 0, false⟩) 0 }).uPort.frame =
        some ⟨List.replicate 78 0, true⟩ ∧
      (upPort (some ⟨List.replicate 78 0, true⟩) 0).frame = some ⟨List.replicate 78 0, true⟩ := by decide

/-- Loss at the sixteenth symbol, and REALIGN of each port and of a port number beyond them. -/
theorem test_hyp_LossAndRealignBeginANewSweep :
    ((upPort none 15).receiver = .up ∧ (upPort none 15).invalidRun = 15 ∧ Symbol.invalid.countsLoss = true) ∧
      statusOf .realign (command 13 2) State.reset = some .badValue ∧
      statusOf .realign (command 13 0) State.reset = some .ok ∧
      statusOf .realign (command 13 1) { State.reset with dPort := upPort none 0 } = some .ok := by decide

/-- A SAMPLE frame of one sample from source 5. -/
def sampleFrame : Frame :=
  withCrc [0x10, 0x05, 0x20, 0, 0, 0, 0x64, 1, 0x00, 0x2A]

theorem test_hyp_FrameCompletedAtUIsForwarded :
    (upPort (some ⟨[1, 2], false⟩) 0).frame = some ⟨[1, 2], false⟩ ∧ offeredToMap [1, 2] = false ∧ State.reset.handing = none ∧
      (offeredToMap sampleFrame = true ∧ State.reset.lookup (sampleSource sampleFrame) = none) := by decide +kernel

/-- Entry 3 has taken frames up to a sequence number; watches 0 and 9 reference it, the second ASSERTED; slot 2 is ARMED, a refresh is on
the port, and the END of a frame from source 5 is next. -/
def atEnd (expected : BitVec 8) : State :=
  let s := (busy.setChannel 3 { busy.channel 3 with sync := .synced, expected := expected }).setWatch 9
    { Watch.reset with config := { WatchConfig.reset with channel := 3 }, state := .asserted }
  { memoryIn .ready (some .refresh) (s.setWatch 0 { Watch.reset with config := { WatchConfig.reset with channel := 3 } }) with
    uPort := upPort (some ⟨sampleFrame, false⟩) 0 }

/-- The frame and its entry; then the END on its own, and all turns at once. -/
theorem test_hyp_SampleFrameIsTakenByItsEntry :
    (goodCrc sampleFrame = true ∧ frameKind sampleFrame = 1 ∧ sampleCount sampleFrame = 1 ∧ sampleFrame.length = 12) ∧
      (((atEnd 0).channel 3).valid = true ∧ ((atEnd 0).channel 3).sourceId = sampleSource sampleFrame ∧
        (∀ e, e ≠ 3 → ((atEnd 0).channel e).valid = false) ∧ (atEnd 0).handing = none ∧ (atEnd 0).link.u2d = []) ∧
      (after (.symbolReceived .u .endFrame) (atEnd 0x20)).handing = some ⟨3, some 2, 0, [(0x2A, 0x64)]⟩ ∧
      (after .frameCompletedU (atEnd 0x20)).handing = none ∧
      (after .frameCompletedU (atEnd 0x20)).queue = [⟨2, .a, 0, 0x2A, 1024⟩] ∧
      ((after .frameCompletedU (atEnd 0x20)).channel 3).expected = 0x21 := by decide +kernel

/-- A turn of a watch that references the entry, of one that does not, of the slot, of no slot, and after the last sample; a watch that
fires, one that does not and one that is OFF; a further frame whose END comes with an earlier one on its way. -/
theorem test_hyp_eachTurn :
    ((onItsWay 0).uPort.receiver ≠ .up ∧ (onItsWay 31).handing = some ⟨3, some 2, 31, [(11, 100), (12, 110)]⟩) ∧
      ((onItsWay 0).watch 0).config.channel ≠ 3 ∧ ((atEnd 0).watch 0).config.channel = 3 ∧
      (takeTurn (onItsWay 31)).handing = some ⟨3, some 2, 32, [(11, 100), (12, 110)]⟩ ∧
      (takeTurn (onItsWay 32)).handing = some ⟨3, some 2, 0, [(12, 110)]⟩ ∧
      (takeTurn { busy with handing := some ⟨3, none, 32, [(12, 110)]⟩ }).handing = none ∧
      ((atEnd 0).watch 0).state = .off ∧ (((atEnd 0).watch 9).onSample 5 0).2 = false ∧
      (({ Watch.reset with state := .clear } : Watch).onSample 5 0).2 = true ∧
      ({ onItsWay 3 with uPort := upPort (some ⟨[1, 2], false⟩) 0 } : State).uPort.receiver = .up := by decide +kernel

/-- R36 and R78: a DISARM-SLOT between two samples of a frame, and one between a watch's turn and the slot's, keep the slot from the
samples that follow. -/
theorem test_commandBetweenSamples :
    (finishHanding (onItsWay 0)).queue = [⟨2, .a, 0, 11, 1024⟩, ⟨2, .a, 1, 12, 1025⟩] ∧
      (finishHanding (after .disarmSlot (asking (command 2 2) (takeTurn (onItsWay 32))))).queue = [⟨2, .a, 0, 11, 1024⟩] ∧
      (finishHanding (after .disarmSlot (asking (command 2 2) (onItsWay 32)))).queue = [] := by decide +kernel

/-- R32: a watch whose turn comes after GATE CLOSED is GATED, one whose turn came before asked its slot. -/
theorem test_gateBetweenTurns :
    let watched := (onItsWay 0).setWatch 0
      { Watch.reset with
        config := { WatchConfig.reset with channel := 3, target := 2, sensitivity := .level }, state := .asserted }
    ((takeTurn watched).watch 0).lastOutcome = .taken ∧
      ((takeTurn (after .gate (asking (command 7 0) watched))).watch 0).lastOutcome = .gated := by decide +kernel

/-- A gap, with the slot recording and without, and none; a watch of the entry that is OFF, one that is not, and one of another entry. -/
theorem test_hyp_GapRestartsWatchesAndIsCounted :
    (((atEnd 4).channel 3).sync = .synced ∧ sampleSequence sampleFrame ≠ ((atEnd 4).channel 3).expected ∧
        sampleSequence sampleFrame = ((atEnd 0x20).channel 3).expected) ∧
      (((atEnd 4).watch 9).state ≠ .off ∧ ((atEnd 4).watch 0).state = .off ∧ ((atEnd 4).watch 1).config.channel ≠ 3) ∧
      (((atEnd 4).channel 3).bound = some 2 ∧ ((atEnd 4).slot 2).live.active = some .a ∧
        ((atEnd 4).setLive 2 (SlotLive.cleared .idle) |>.slot 2).live.active = none) ∧
      ((after (.symbolReceived .u .endFrame) (atEnd 4)).watch 9).state = .unprimed ∧
      ((after (.symbolReceived .u .endFrame) (atEnd 4)).record 2 .a).gaps = 1 ∧
      ((after (.symbolReceived .u .endFrame) (atEnd 0x20)).record 2 .a).gaps = 0 := by decide +kernel

/-! ## Hypotheses that can be met: watches, slots, notices and arbiters -/

/-- A watch of a kind in a state, A = 10, H = 4. -/
def watchIn (kind : WatchKind) (state : WatchState) (qualify progress : Nat) : Watch :=
  { Watch.reset with
    config := { WatchConfig.reset with kind := kind, thresholdA := 10, hysteresis := 4, qualify := qualify }
    state := state, progress := progress }

/-- Every side of the three level kinds, at the bounds. -/
theorem test_hyp_LevelKindsSortSamplesBySide :
    let above := (watchIn .above .clear 1 0).config
    let below := (watchIn .below .clear 1 0).config
    let band := { above with kind := WatchKind.bandOut, thresholdB := -10 }
    (above.side 11 = .onTrue ∧ above.side 10 = .hold ∧ above.side 6 = .hold ∧ above.side 5 = .onFalse) ∧
      (below.side 9 = .onTrue ∧ below.side 10 = .hold ∧ below.side 14 = .hold ∧ below.side 15 = .onFalse) ∧
      band.constrained = true ∧ band.side 11 = .onTrue ∧ band.side 10 = .hold ∧ band.side 6 = .onFalse ∧
      band.side (-6) = .onFalse ∧ band.side (-7) = .hold ∧ band.side (-11) = .onTrue := by decide

theorem test_hyp_LevelWatchMovesOneStepPerSample :
    let side := fun s v => (watchIn .above s 3 2).config.side v
    side .unprimed 5 = .onFalse ∧ side .clear 11 = .onTrue ∧ (watchIn .above .clear 1 0).config.qualify = 1 ∧
      2 ≤ (watchIn .above .clear 2 0).config.qualify ∧ side .qualifying 10 = .hold ∧
      (watchIn .above .qualifying 3 1).progress + 1 < 3 ∧ (watchIn .above .qualifying 3 2).progress + 1 = 3 ∧
      ((watchIn .above .qualifying 3 2).onSample 11 0).2 = true := by decide

theorem test_hyp_CrossingWatchPrimesThenFires :
    ((watchIn .rise .unprimed 1 0).onSample 5 0).1.state = .clear ∧ ((watchIn .rise .clear 1 0).onSample 11 0).2 = true ∧
      ((watchIn .fall .unprimed 1 0).onSample 15 0).1.state = .clear ∧
      ((watchIn .fall .clear 1 0).onSample 9 0).2 = true := by decide

theorem test_hyp_MeasuringWatchTimesWidthsAndPeriods :
    ((watchIn .width .unprimed 1 0).onSample 5 0).1.state = .clear ∧
      ((watchIn .width .clear 1 0).onSample 11 7).1.state = .measuring ∧
      ((watchIn .width .measuring 1 0).onSample 5 16777215).1.lastResult = .result 16777215 ∧
      ((watchIn .width .measuring 1 0).onSample 5 16777216).1.lastResult = .overrun ∧
      ((watchIn .period .measuring 1 0).onSample 5 3).1.phase = .back ∧
      (({ watchIn .period .measuring 1 0 with phase := .back } : Watch).onSample 11 9).1.lastResult = .result 9 := by decide

theorem test_hyp_TriggerRequestActsByTheSlotState :
    statusOf .forceTrigger (command 3 8) State.reset = some .badValue ∧
      statusOf .forceTrigger (command 3 7) State.reset = some .wrongState ∧
      statusOf .forceTrigger (command 3 2) (recordingIn .armed 0 0 State.reset) = some .ok ∧
      ((recordingIn .armed 0 0 State.reset).slot 2).live.active = some .a ∧
      ((recordingIn .post 0 0 State.reset).slot 2).live.state = .post ∧
      ((recordingIn .post 0 0 State.reset).slot 2).config.retrigger = .ignore := by decide

/-- A gate OPEN and CLOSED, and each state the target is found in. -/
theorem test_hyp_FiringWatchNotesTimeAndOutcome :
    let target := fun s : State => s.setWatch 0 { Watch.reset with config := { WatchConfig.reset with target := 2 } }
    let outcome := fun s : State => ((fireWatch 0 9 (target s)).watch 0).lastOutcome
    State.reset.capture.gateOpen = true ∧ outcome (recordingIn .armed 0 0 State.reset) = .taken ∧
      outcome (recordingIn .post 0 0 State.reset) = .retriggered ∧ outcome State.reset = .refusedIdle ∧
      outcome (recordingIn .stalled 0 0 State.reset) = .refusedStalled ∧
      outcome { State.reset with capture := { CaptureUnit.reset with gateOpen := false } } = .gated := by decide

/-- The port busy, free and in HOLD; the queue full. -/
theorem test_hyp_ArmedSlotStoresOrLosesASample :
    let full := { recordingIn .armed 0 0 State.reset with queue := List.replicate 128 ⟨2, .a, 0, 0, 1024⟩ }
    let s := memoryIn .ready (some .refresh) (recordingIn .armed 0 0 State.reset)
    (s.slot 2).live.state = .armed ∧ (s.slot 2).live.active = some .a ∧ s.queue.length < 128 ∧ s.ctl.op ≠ none ∧
      s.ctl.state ≠ .hold ∧ 128 ≤ full.queue.length ∧ ((slotSample 2 5 9 full).record 2 .a).lost = 1 ∧
      (slotSample 2 5 9 busy).ctl.op = some (.burst [⟨2, .a, 0, 5, 1024⟩]) ∧
      (slotSample 2 5 9 (memoryIn .hold none busy)).ctl.state = .exiting := by decide +kernel

/-- A post sample short of the target raises EARLY, and the one at the target completes the capture. -/
theorem test_hyp_PostSampleAdvancesTheCapture :
    let first := recordingIn .post 3 5 State.reset
    let last := slotSample 2 5 9 first
    (first.slot 2).live.writePos < (first.slot 2).config.size ∧ (first.record 2 .a).preCount ≤ (first.slot 2).config.size ∧
      (last.slot 2).live.earlyRaised = true ∧ (last.record 2 .a).postCount + 1 = (last.slot 2).live.postTarget ∧
      ((slotSample 2 6 10 last).record 2 .a).state = .sealing ∧ ((slotSample 2 6 10 last).slot 2).live.active = some .b := by decide

/-- With N = 1 the first post sample completes; with the count table on the next half's word is marked, or stays so. -/
theorem test_hyp_firstPostSampleCompletes :
    let one := (recordingIn .post 3 5 State.reset).setLive 2
      { ((recordingIn .post 3 5 State.reset).slot 2).live with postTarget := 1, firstPostPending := true }
    let on := { one with capture := { CaptureUnit.reset with tableOn := true } }
    (one.record 2 .a).postCount + 1 = (one.slot 2).live.postTarget ∧ ((slotSample 2 6 10 one).record 2 .a).start = 3 ∧
      (slotSample 2 6 10 one).ctl.dirty[5] = false ∧ (slotSample 2 6 10 on).ctl.dirty[5] = true ∧
      countWordOf 2 Half.a.other = 5 := by decide

/-- The express class, and the fourth class of the order list with the holdoff timer stopped. -/
theorem test_hyp_NoticeIsBuiltForTheRightClass :
    let u := { NoticeUnit.reset with enable := NoticeUnit.reset.enable.set 5 0xFF, pending := NoticeUnit.reset.pending.set 5 0x6 }
    (u.noticeSlot = none ∧ u.eligible 5 = true ∧ u.timer.running = false ∧ u.order.toList = [7, 0, 3] ++ 5 :: [4, 1, 2, 6] ∧
      ([7, 0, 3].all fun k => !u.eligible k) = true ∧ (0 : BitVec 6) ≠ 63) ∧
      ({ u with express := some 5, timer := ⟨true, 9⟩ } : NoticeUnit).expressChoice = some 5 ∧
      ({ u with express := some 4 } : NoticeUnit).expressChoice = none ∧
      ({ u with timer := ⟨true, 9⟩ } : NoticeUnit).buildChoice 0 = none ∧ u.buildChoice 63 = none ∧
      u.buildChoice 0 = some 5 ∧ NoticeUnit.reset.buildChoice 0 = none := by decide

theorem test_hyp_MemoryArbiterFollowsItsOrder :
    let entry : QueueEntry := ⟨2, .a, 0, 7, 1024⟩
    let ready := memoryIn .ready none State.reset
    (ready.ctl.state = .ready ∧ ready.ctl.op = none ∧ ready.ctl.refreshDue = false) ∧
      (chooseMem { ready with queue := List.replicate 64 entry }).ctl.op = some (.burst [entry]) ∧
      (chooseMem { ready with ctl := { ready.ctl with refreshDue := true } }).ctl.op = some .refresh ∧
      (chooseMem { ready with ctl := { ready.ctl with reads := [⟨0, 1, 0⟩] } }).ctl.op = some .fetchRead ∧
      (chooseMem { ready with ctl := { ready.ctl with dirty := ready.ctl.dirty.set 4 true } }).ctl.op =
        some (.countWrite 4 4 0) ∧
      (chooseMem (memoryIn .entering none State.reset)).ctl.op = some .closing := by decide

theorem test_hyp_BurstTakesTheRunAtTheHead :
    takeBurst [⟨2, .a, 7, 0, 0⟩, ⟨2, .a, 8, 0, 0⟩, ⟨2, .b, 9, 0, 0⟩] =
        ([⟨2, .a, 7, 0, 0⟩, ⟨2, .a, 8, 0, 0⟩], [⟨2, .b, 9, 0, 0⟩]) ∧
      ((takeBurst ((List.range 17).map fun k => ⟨2, .a, k, 0, 0⟩)).1.length = 16) := by decide

theorem test_hyp_TransmitArbiterFollowsItsOrder :
    let s := { State.reset with link := { LinkState.reset with u2d := List.replicate 6 [1] } }
    let r : Refused := ⟨request 1 7 0 0 1 0 [], busyResponse (request 1 7 0 0 1 0 [])⟩
    6 ≤ s.link.u2d.length ∧ State.reset.link.u2d.length < 6 ∧ State.reset.notices.noticeSlot = none ∧
      State.reset.offeredResponse = none ∧
      ({ State.reset with ep := { State.reset.ep with refusal := some r } } : State).offeredResponse =
        some (.busy, r.response) := by decide

/-- The oldest context ANSWERING, and an older one still WAITING before it. -/
theorem test_hyp_oldestResponse :
    let answer := Context.answering ⟨request 1 7 0 0 1 0 [], 3⟩ ⟨7, .ok, [0]⟩
    let s := { State.reset with ep := { State.reset.ep with contexts := State.reset.ep.contexts.set 1 answer } }
    let behind := { s with ep := { s.ep with contexts := s.ep.contexts.set 0 (.waiting (command 10 0)) } }
    s.offeredResponse = some (.context 1, ⟨7, .ok, [0]⟩) ∧ (s.context 0).order = none ∧ (behind.context 0).order = some 0 ∧
      behind.offeredResponse = none := by decide

/-! ## Hypotheses that can be met: requests -/

/-- The frame that carries a request. -/
def frameOf (r : Request) : Frame :=
  withCrc r.octets

theorem test_hyp_FrameCompletedAtDIsRelayed :
    goodCrc [1, 2] = false ∧ (upPort (some ⟨[1, 2], false⟩) 0).frame = some ⟨[1, 2], false⟩ ∧
      (after .frameCompletedD { State.reset with dPort := upPort (some ⟨[1, 2], false⟩) 0 }).link.d2u = [[1, 2]] := by decide

/-- A request sent to every node, its check octet made good again. -/
def broadcastOf (r : Request) : Request :=
  ⟨(r.octets.set 1 63).set (r.octets.length - 1) (octetAt r.octets (r.octets.length - 1) - 63)⟩

/-- A broadcast COMMAND that takes context 0, a READ that is discarded, and one whose sum is wrong; each goes on to the next part. -/
theorem test_hyp_broadcastIsTakenAndRelayed :
    let sent := fun r : Request => after .frameCompletedD { State.reset with dPort := upPort (some ⟨frameOf r, false⟩) 0 }
    let good := broadcastOf (command 7 0).request
    let idle := broadcastOf (reading 1 0 0 1 0).request
    let wrong : Request := ⟨good.octets.set 2 8⟩
    (goodCrc (frameOf good) = true ∧ frameKind (frameOf good) = 2 ∧ 14 ≤ (frameOf good).length ∧
        frameDestination (frameOf good) = 63) ∧
      ((Request.ofFrame (frameOf good)).checkSum = 0 ∧ good.op = 3 ∧ idle.op = 1 ∧
        (Request.ofFrame (frameOf wrong)).checkSum ≠ 0) ∧
      (sent good).context 0 = .waiting ⟨good, 0⟩ ∧ (sent good).link.d2u = [frameOf good] ∧
      (sent idle).context 0 = .free ∧ (sent idle).link.d2u = [frameOf idle] ∧ (sent wrong).ep.fault.isSome = true ∧
      (sent wrong).link.d2u = [frameOf wrong] := by decide +kernel

/-- A good request, one whose octets do not sum to 0, and a full endpoint. -/
theorem test_hyp_AddressedRequestTakesAContext :
    let f := frameOf (command 10 0).request
    let wrong := frameOf ⟨(command 10 0).request.octets.set 2 8⟩
    (goodCrc f = true ∧ frameKind f = 2 ∧ 14 ≤ f.length ∧ frameDestination f = 0 ∧ (Request.ofFrame f).checkSum = 0) ∧
      (goodCrc wrong = true ∧ (Request.ofFrame wrong).checkSum ≠ 0) ∧ State.reset.context 0 = .free ∧
      (∀ i : Fin 4, (Vector.replicate 4 (Context.waiting (command 10 0)))[i] ≠ .free) := by decide +kernel

/-- An undefined op, a wrong length, the fault test and an undefined command code. -/
theorem test_hyp_RefusedRequestChangesNothing :
    let faulty := { State.reset.ep with fault := some ⟨1, 3, 7, .check, 0⟩ }
    State.reset.ep.refuses ⟨request 9 7 0 0 0 0 [], 0⟩ = some .badOp ∧ State.reset.ep.refuses (reading 1 0 0 1 0) = none ∧
      State.reset.ep.refuses ⟨request 2 7 0 0 2 0 [0], 0⟩ = some .badOp ∧ State.reset.ep.refuses (command 14 0) = some .badOp ∧
      faulty.refuses (command 10 0) = some .faulted ∧ faulty.refuses (command 9 0) = none ∧
      faulty.refuses (write 1 0 [0]) = some .faulted ∧
      (asking (command 14 0) State.reset).nextExecution = some (0, command 14 0) := by decide

/-- Each row beside READ, FETCH and WRITE answers its request FAULTED; a code that names no command is answered FAULTED, then BAD_OP; one
context READING keeps the others WAITING. -/
theorem test_hyp_rowsOfARefusedRequest :
    let faulty := { State.reset with ep := { State.reset.ep with fault := some ⟨1, 3, 7, .check, 0⟩ } }
    let reading := { State.reset with ep := { State.reset.ep with
      contexts := (State.reset.ep.contexts.set 0 (.reading (reading 4 0 0 3 8))).set 1 (.waiting (command 10 0)) } }
    ((statusOf .writeChannelMap (write 1 12 [0]) faulty = some .faulted ∧ statusOf .writeWatch (write 2 8 [0]) faulty = some .faulted ∧
        statusOf .writeSlot (write 3 0 [0]) faulty = some .faulted ∧ statusOf .writeTimingSet (write 6 3 [0]) faulty = some .faulted ∧
        statusOf .writeCountTable (write 0 6 [0]) faulty = some .faulted ∧
        statusOf .writeEnableSet (write 5 15 [0]) faulty = some .faulted ∧
        statusOf .writeOrderList (write 5 17 [0]) faulty = some .faulted) ∧
      statusOf .writeExpressClass (write 0 9 [0]) faulty = some .faulted ∧
      statusOf .writeCheckMode (write 0 2 [1]) faulty = some .faulted ∧ statusOf .realign (command 13 0) faulty = some .faulted) ∧
      statusOf .gate (command 14 0) faulty = some .faulted ∧ statusOf .gate (command 14 0) State.reset = some .badOp ∧
      statusOf .clearFault (command 9 0) faulty = some .ok ∧ reading.nextExecution = none ∧
      State.reset.nextExecution = none := by decide

/-- Space 7, counts 0 and 17, the last word of space 4 and one past it. -/
theorem test_hyp_ReadReturnsTheWordsAsTheyStand :
    statusOf .read (reading 1 7 0 1 0) State.reset = some .badSpace ∧
      statusOf .read (reading 1 6 0 0 0) State.reset = some .badValue ∧
      statusOf .read (reading 1 0 0 17 0) State.reset = some .badValue ∧
      statusOf .read (reading 1 4 16 1 0) State.reset = some .ok ∧
      statusOf .read (reading 1 4 16 2 0) State.reset = some .badIndex := by decide

/-- A fault record, an index entry, a last result, the last stored time of an ACTIVE half, and a frame in the notice slot. -/
theorem test_hyp_wordsShowTheirFields :
    let s := { halvesIn .full .empty .stop with
      ep := { State.reset.ep with fault := some ⟨1, 3, 7, .check, 0⟩ }
      notices := { NoticeUnit.reset with noticeSlot := some ⟨0, 7, 0, 1, 0xE0, 0, true⟩ } }
    spaceWord s 0 3 = 0x80010307 ∧ spaceWord s 0 4 = 1 ∧ spaceWord s 4 0 = 1 ∧ spaceWord s 4 1 = 0x82000000 ∧
      spaceWord s 4 2 = 0 ∧ spaceWord s 5 18 = 0xF1 ∧ spaceWord State.reset 5 18 = 0 ∧
      spaceWord (State.reset.setWatch 1 { Watch.reset with lastResult := .result 9 }) 2 13 = 9 ∧
      spaceWord (slotSample 2 5 9 busy) 3 45 = 9 ∧ spaceWord s 3 34 = 0xC000 := by decide

/-- Counts 0 and 33, the last word and one past it, before and after MEM-START, and from HOLD. -/
theorem test_hyp_FetchPlacesItsRead :
    let ready := memoryIn .ready none State.reset
    statusOf .fetch (reading 4 0 0 0 0) ready = some .badValue ∧ statusOf .fetch (reading 4 0 0 33 0) ready = some .badValue ∧
      statusOf .fetch (reading 4 0 0 2 16777215) ready = some .badIndex ∧
      statusOf .fetch (reading 4 0 0 1 16777215) State.reset = some .notReady ∧
      (after .fetch (asking (reading 4 0 0 1 16777215) ready)).ctl.op = some .fetchRead ∧
      (after .fetch (asking (reading 4 0 0 32 0) (memoryIn .hold none State.reset))).ctl.state = .exiting := by decide

/-- The hypotheses of a WRITE that its owner sees, for each space that is written. -/
theorem test_hyp_runsWrite :
    ((asking (write 1 12 [0x80000005, 0x0002000A]) State.reset).runsWrite 1 0 (write 1 12 [0x80000005, 0x0002000A])) ∧
      ((asking (write 2 0 [0]) State.reset).runsWrite 2 0 (write 2 0 [0])) ∧
      ((asking (write 3 2 [0]) State.reset).runsWrite 3 0 (write 3 2 [0])) ∧
      ((asking (write 6 2 [1560]) State.reset).runsWrite 6 0 (write 6 2 [1560])) ∧
      ((asking (write 5 8 [1]) State.reset).runsWrite 5 0 (write 5 8 [1])) ∧
      ((asking (write 0 2 [1]) State.reset).runsWrite 0 0 (write 0 2 [1])) := by
  unfold State.runsWrite State.executesNow
  decide

/-- In range, out of range by source ID and by interval, locked by a slot, a duplicate source. -/
theorem test_hyp_ChannelMapWriteIsTakenWholeOrRefused :
    statusOf .writeChannelMap (write 1 12 [0x80000FFF, 0x0007FFFF]) State.reset = some .ok ∧
      statusOf .writeChannelMap (write 1 12 [0x80001000]) State.reset = some .badValue ∧
      statusOf .writeChannelMap (write 1 13 [0x00020000]) State.reset = some .badValue ∧
      statusOf .writeChannelMap (write 1 12 [0x80000006]) busy = some .locked ∧
      statusOf .writeChannelMap (write 1 16 [0x80000005]) (mapped State.reset) = some .duplicate := by decide +kernel

/-- A WRITE to the entry of a frame on its way ends it there; a WRITE to another entry does not (R15). -/
theorem test_hyp_mapWriteEndsItsFrame :
    let s := { mapped State.reset with handing := some ⟨3, none, 5, [(11, 100)]⟩ }
    (after .writeChannelMap (asking (write 1 12 [0x80000007]) s)).handing = none ∧
      (after .writeChannelMap (asking (write 1 16 [0x80000007]) s)).handing = s.handing := by decide +kernel

/-- Kind PERIOD, kind 7, Q = 0, a BAND-OUT whose band closes, and a watch that is not OFF. -/
theorem test_hyp_WatchWriteIsTakenWholeOrRefused :
    statusOf .writeWatch (write 2 8 [0x00600000]) State.reset = some .ok ∧
      statusOf .writeWatch (write 2 8 [0x00700000]) State.reset = some .badValue ∧
      statusOf .writeWatch (write 2 10 [0]) State.reset = some .badValue ∧
      statusOf .writeWatch (write 2 8 [0x00200001]) State.reset = some .badValue ∧
      statusOf .writeWatch (write 2 9 [0]) (State.reset.setWatch 1 { Watch.reset with state := .clear }) = some .locked := by
  decide +kernel

/-- The largest slot at the top of memory, one past it, E not below N, and a slot that records. -/
theorem test_hyp_SlotWriteIsTakenWholeOrRefused :
    statusOf .writeSlot (write 3 32 [0x01007C00]) State.reset = some .ok ∧
      statusOf .writeSlot (write 3 32 [0x01007C01]) State.reset = some .badValue ∧
      statusOf .writeSlot (write 3 33 [0x00020000, 0x00000002]) State.reset = some .badValue ∧
      statusOf .writeSlot (write 3 34 [0]) (recordingIn .armed 0 0 State.reset) = some .locked := by decide +kernel

/-- Both ends of the refresh interval, a read latency of 4, a READY memory, and a WRITE to the read-only words. -/
theorem test_hyp_TimingSetWriteNeedsUninitOrHold :
    statusOf .writeTimingSet (write 6 2 [16383]) State.reset = some .ok ∧
      statusOf .writeTimingSet (write 6 2 [255]) State.reset = some .badValue ∧
      statusOf .write (write 6 3 [0x06030304]) State.reset = some .badValue ∧
      statusOf .writeTimingSet (write 6 2 [256]) (memoryIn .ready none State.reset) = some .notHeld ∧
      statusOf .writeTimingSet (write 6 2 [256]) (memoryIn .hold none State.reset) = some .ok ∧
      statusOf .write (write 6 0 [5, 5]) (memoryIn .ready none State.reset) = some .ok := by decide

theorem test_hyp_NoticeWriteReplacesSetsAndOrder :
    (after .writeEnableSet (asking (write 5 15 [0xFFFFFFFF]) State.reset)).notices.enable[7] = 0x7 ∧
      statusOf .writeOrderList (write 5 17 [0x76543210]) State.reset = some .ok ∧
      statusOf .writeOrderList (write 5 17 [0x76543211]) State.reset = some .badValue ∧
      statusOf .write (write 5 0 [1]) State.reset = some .ok := by decide

/-- Each setting at its bound and past it; the count table turned on, moved, left as it stands and turned off. -/
theorem test_hyp_ControlWriteChangesItsSettings :
    let on := { memoryIn .init (some .initSequence) State.reset with
      capture := { CaptureUnit.reset with tableOn := true, tableBase := 16 } }
    statusOf .writeCheckMode (write 0 2 [1]) State.reset = some .ok ∧
      statusOf .writeCheckMode (write 0 2 [2]) State.reset = some .badValue ∧
      statusOf .writeExpressClass (write 0 9 [8]) State.reset = some .ok ∧
      statusOf .writeExpressClass (write 0 9 [9]) State.reset = some .badValue ∧
      statusOf .write (write 0 7 [7]) State.reset = some .ok ∧ statusOf .write (write 0 7 [8]) State.reset = some .badValue ∧
      statusOf .writeCountTable (write 0 6 [0x80000008]) State.reset = some .badValue ∧
      (after .writeCountTable (asking (write 0 6 [0x80000010]) State.reset)).ctl.dirty = Vector.replicate 16 true ∧
      (after .writeCountTable (asking (write 0 6 [0x80000020]) on)).ctl.dirty = Vector.replicate 16 true ∧
      (after .writeCountTable (asking (write 0 6 [0x80000010]) on)).ctl.dirty = Vector.replicate 16 false ∧
      (after .writeCountTable (asking (write 0 6 [0x00000010]) on)).capture.tableOn = false ∧
      (after .writeCountTable (asking (write 0 6 [0x80000010]) (memoryIn .hold none State.reset))).ctl.state = .exiting := by
  decide

/-! ## Hypotheses that can be met: commands -/

/-- Every command code executes on a state whose oldest request carries it. -/
theorem test_hyp_runsCommand :
    ∀ code : Fin 13, ((asking (command (code.val + 1) 0) State.reset).nextExecution = some (0, command (code.val + 1) 0)) ∧
      (State.reset.ep.refuses (command (code.val + 1) 0) = none) ∧ (command (code.val + 1) 0).request.isCommand (code.val + 1) = true := by
  decide

/-- The checks of ARM-SLOT, then half B, the reclaim of half A, and STALLED. -/
theorem test_hyp_ArmSlotTakesAHalf :
    statusOf .armSlot (command 1 8) busy = some .badValue ∧ statusOf .armSlot (command 1 2) busy = some .wrongState ∧
      statusOf .armSlot (command 1 7) busy = some .badValue ∧
      statusOf .armSlot (command 1 2) (mapped State.reset) = some .notReady ∧
      statusOf .armSlot (command 1 2)
        { halvesIn .empty .empty .stop with capture := { CaptureUnit.reset with tableOn := true, tableBase := 1008 } } =
          some .badValue ∧
      ((after .armSlot (asking (command 1 2) (halvesIn .full .empty .stop))).slot 2).live.active = some .b ∧
      ((after .armSlot (asking (command 1 2) (halvesIn .full .sealing .overwrite))).slot 2).live.active = some .a ∧
      ((after .armSlot (asking (command 1 2) (halvesIn .sealing .sealing .overwrite))).slot 2).live.state = .stalled ∧
      ((after .armSlot (asking (command 1 2) (halvesIn .full .sealing .stop))).slot 2).live.state = .stalled := by decide

/-- ARM-SLOT in HOLD with the count table on: the memory stays in HOLD, its word marked, until a sample is stored (R124, R125, log entry
27). -/
theorem test_hyp_armInHold :
    let s := memoryIn .hold none
      { halvesIn .empty .empty .stop with capture := { CaptureUnit.reset with tableOn := true, tableBase := 8192 } }
    let t := after .armSlot (asking (command 1 2) s)
    t.ctl.state = .hold ∧ t.ctl.op = none ∧ t.ctl.dirty[4] = true ∧ (t.slot 2).live.state = .armed ∧
      (slotSample 2 5 9 t).ctl.state = .exiting ∧
      (after .armSlot (asking (command 1 2) (memoryIn .entering (some .closing) (halvesIn .empty .empty .stop)))).ctl.state =
        .ready := by decide

/-- DISARM-SLOT from each slot state; from POST with nothing waiting and with an entry still queued. -/
theorem test_hyp_DisarmSlotEmptiesOrTruncates :
    let waiting := { recordingIn .post 0 0 State.reset with queue := [⟨2, .a, 0, 7, 1024⟩] }
    statusOf .disarmSlot (command 2 8) State.reset = some .badValue ∧
      statusOf .disarmSlot (command 2 7) State.reset = some .wrongState ∧
      statusOf .disarmSlot (command 2 2) (recordingIn .stalled 0 0 State.reset) = some .ok ∧
      ((after .disarmSlot (asking (command 2 2) (recordingIn .armed 0 0 State.reset))).record 2 .a).state = .empty ∧
      ((after .disarmSlot (asking (command 2 2) (recordingIn .post 0 0 State.reset))).record 2 .a).state = .full ∧
      ((after .disarmSlot (asking (command 2 2) waiting)).record 2 .a).state = .sealing := by decide

theorem test_hyp_ReleaseHalfEmptiesOrRearms :
    statusOf .releaseHalf (command 4 8) State.reset = some .badValue ∧
      statusOf .releaseHalf (command 4 0x0207) State.reset = some .badValue ∧
      statusOf .releaseHalf (command 4 0x0107) State.reset = some .wrongState ∧
      statusOf .releaseHalf (command 4 2) (halvesIn .full .empty .stop) = some .ok ∧
      ((after .releaseHalf (asking (command 4 2)
        ((halvesIn .full .sealing .stop).setLive 2 (SlotLive.cleared .stalled)))).slot 2).live.state = .armed := by decide

theorem test_hyp_WatchIsEnabledAndDisabled :
    statusOf .enableWatch (command 5 32) State.reset = some .badValue ∧
      statusOf .enableWatch (command 5 31) State.reset = some .badValue ∧
      statusOf .enableWatch (command 5 31) (State.reset.setChannel 0 { MapEntry.reset with valid := true }) = some .ok ∧
      statusOf .enableWatch (command 5 31) (State.reset.setWatch 31 { Watch.reset with state := .clear }) = some .wrongState ∧
      statusOf .disableWatch (command 6 31) State.reset = some .ok ∧
      statusOf .disableWatch (command 6 32) State.reset = some .badValue := by decide

theorem test_hyp_GateFaultAndMemoryCommandsAct :
    statusOf .clearFault (command 9 0) State.reset = some .ok ∧
      statusOf .memHold (command 11 0) State.reset = some .wrongState ∧
      statusOf .memHold (command 11 0) (memoryIn .hold none State.reset) = some .ok ∧
      statusOf .memHold (command 11 0) busy = some .wrongState ∧
      (after .memHold (asking (command 11 0) (memoryIn .ready none State.reset))).ctl.op = some .closing := by decide

theorem test_hyp_AckNoticeTakesTheNamedSources :
    let s := { State.reset with notices := { NoticeUnit.reset with pending := NoticeUnit.reset.pending.set 2 0x80010003 } }
    statusOf .ackNotice (command 8 0x00080001) s = some .badValue ∧ statusOf .ackNotice (command 8 0x02020001) s = some .badValue ∧
      (after .ackNotice (asking (command 8 0x00020001) s)).notices.pending[2] = 0x80010002 ∧
      (after .ackNotice (asking (command 8 0x01028001) s)).notices.pending[2] = 0x00000003 := by decide

theorem test_hyp_ResetCaptureClearsTheCaptureSide :
    let on := { memoryIn .hold none State.reset with capture := { CaptureUnit.reset with tableOn := true } }
    statusOf .resetCapture (command 12 0) busy = some .ok ∧ busy.capture.tableOn = false ∧
      (after .resetCapture (asking (command 12 0) on)).ctl.state = .exiting := by decide

/-! ## Hypotheses that can be met: ends of operations -/

/-- A burst that fills a SEALING half, and one whose slot reclaims it. -/
theorem test_hyp_BurstEndWritesItsWordsAndMayFillItsHalf :
    let burst := fun s : State => memoryIn .ready (some (.burst [⟨2, .a, 0, 7, 1024⟩])) s
    let stalled := (halvesIn .sealing .sealing .overwrite).setLive 2 (SlotLive.cleared .stalled)
    (after .burstEnd (burst (halvesIn .sealing .empty .stop))).mem.read 1024 = some 7 ∧
      (after .burstEnd (burst (halvesIn .sealing .empty .stop))).capture.index = [(2, .a)] ∧
      (after .burstEnd (burst (halvesIn .active .empty .stop))).capture.index = [] ∧
      ((after .burstEnd (burst stalled)).slot 2).live.active = some .a := by decide

theorem test_hyp_MemoryOperationsEndAsTheirRulesSay :
    let ready := memoryIn .ready none State.reset
    let read := { memoryIn .ready (some .fetchRead) State.reset with
      ep := { (Endpoint.reset 0) with contexts := (Endpoint.reset 0).contexts.set 1 (.reading (reading 4 0 0 3 8)) }
      mem := ⟨[(8, 1), (9, 2), (10, 3)]⟩ }
    let fetch := { read with ctl := { read.ctl with reads := [⟨8, 3, 1⟩] } }
    (after .refreshDue ready).ctl.op = some .refresh ∧
      (after .refreshEnd (memoryIn .ready (some .refresh) State.reset)).ctl.op = none ∧
      (match (after .fetchReadEnd fetch).context 1 with | .answering _ r => r.words | _ => []) = [0x00020001, 3] ∧
      (after .countTableWriteEnd (memoryIn .ready (some (.countWrite 3 19 7)) State.reset)).mem.read 19 = some 7 ∧
      (after .closingOperationEnd (memoryIn .entering (some .closing) State.reset)).ctl.state = .hold ∧
      (after .closingOperationEnd (memoryIn .ready (some .closing) State.reset)).ctl.state = .ready ∧
      (after .exitSequenceEnd (memoryIn .exiting (some (.exitSequence true)) State.reset)).ctl.state = .ready := by decide

theorem test_hyp_SentFrameFreesItsHolder :
    let s := { State.reset with
      dPort := upPort none 0, uPort := upPort none 0,
      link := { u2d := [[1], [2]], d2u := [[3], [4]], dSending := some ⟨.forward, [1]⟩, uSending := some [3] } }
    s.link.dSending = some ⟨.forward, [1]⟩ ∧ s.link.uSending = some [3] ∧
      (after .dFrameSent s).link.dSending = some ⟨.forward, [2]⟩ ∧ (after .uFrameSent s).link.uSending = some [4] ∧
      (after .dFrameSent { s with link := { s.link with dSending := some ⟨.notice, []⟩ } }).notices.timer = ⟨true, 100⟩ := by decide

end Sys2Proof.Tests
end

section
/-! SUPPORT. What the handing on of samples, the triggers and the ends of captures leave as it was: the configurations, the watches
that are OFF, the slots that are IDLE and the forward queues. -/

namespace Sys2Proof.Machine

/-- From `s` to `t` no configuration of a watch or slot changes, no watch leaves OFF, no slot leaves IDLE, and the forward queues stay.
Only ENABLE-WATCH wakes a watch and only ARM-SLOT a slot (R34, R60). -/
structure KeepsAtRest (s t : State) : Prop where
  watchConfig : ∀ w, (t.watch w).config = (s.watch w).config
  watchOff : ∀ w, (s.watch w).state = .off → (t.watch w).state = .off
  slotConfig : ∀ i, (t.slot i).config = (s.slot i).config
  slotIdle : ∀ i, (s.slot i).live.state = .idle → (t.slot i).live.state = .idle
  u2d : t.link.u2d = s.link.u2d
  d2u : t.link.d2u = s.link.d2u

/-! ## Composition, and the updates of one watch or slot -/

theorem KeepsAtRest.trans {s t u : State} (a : KeepsAtRest s t) (b : KeepsAtRest t u) : KeepsAtRest s u where
  watchConfig w := (b.watchConfig w).trans (a.watchConfig w)
  watchOff w h := b.watchOff w (a.watchOff w h)
  slotConfig i := (b.slotConfig i).trans (a.slotConfig i)
  slotIdle i h := b.slotIdle i (a.slotIdle i h)
  u2d := b.u2d.trans a.u2d
  d2u := b.d2u.trans a.d2u

/-- An operation that touches neither table nor forward queue. -/
theorem keepsAtRest_of_eq {s t : State}
    (same : t.watches = s.watches ∧ t.slots = s.slots ∧ t.link.u2d = s.link.u2d ∧ t.link.d2u = s.link.d2u) : KeepsAtRest s t := by
  obtain ⟨w, sl, u, d⟩ := same
  exact ⟨fun _ => by rw [watch_congr w], fun _ h => by rwa [watch_congr w], fun _ => by rw [slot_congr sl],
    fun _ h => by rwa [slot_congr sl], u, d⟩

theorem KeepsAtRest.refl (s : State) : KeepsAtRest s s :=
  keepsAtRest_of_eq ⟨rfl, rfl, rfl, rfl⟩

theorem keepsAtRest_setWatch {s : State} {w : Fin 32} {x : Watch} (config : x.config = (s.watch w).config)
    (off : (s.watch w).state = .off → x.state = .off) : KeepsAtRest s (s.setWatch w x) where
  watchConfig v := by
    by_cases e : v = w
    · subst e
      simpa using config
    · rw [watch_setWatch_ne s x e]
  watchOff v h := by
    by_cases e : v = w
    · subst e
      simpa using off h
    · rwa [watch_setWatch_ne s x e]
  slotConfig _ := rfl
  slotIdle _ h := h
  u2d := rfl
  d2u := rfl

theorem keepsAtRest_setSlot {s : State} {i : Fin 8} {x : Slot} (config : x.config = (s.slot i).config)
    (idle : (s.slot i).live.state = .idle → x.live.state = .idle) : KeepsAtRest s (s.setSlot i x) where
  watchConfig _ := rfl
  watchOff _ h := h
  slotConfig j := by
    by_cases e : j = i
    · subst e
      simpa using config
    · rw [slot_setSlot_ne s x e]
  slotIdle j h := by
    by_cases e : j = i
    · subst e
      simpa using idle h
    · rwa [slot_setSlot_ne s x e]
  u2d := rfl
  d2u := rfl

theorem keepsAtRest_setRecord (s : State) (i : Fin 8) (h : Half) (r : CaptureRecord) : KeepsAtRest s (s.setRecord i h r) :=
  keepsAtRest_setSlot (by simp) (by simp)

theorem keepsAtRest_setLive {s : State} {i : Fin 8} {l : SlotLive} (idle : (s.slot i).live.state = .idle → l.state = .idle) :
    KeepsAtRest s (s.setLive i l) :=
  keepsAtRest_setSlot rfl idle

theorem KeepsAtRest.raised {s t : State} {c : Fin 8} {n : Fin 32} (a : KeepsAtRest s t) : KeepsAtRest s (raise c n t) :=
  a.trans (keepsAtRest_of_eq (by simp))

/-! ## Halves and the index -/

/-- A slot that already works takes a half. -/
theorem keepsAtRest_takeHalf {i : Fin 8} {s : State} (h : Half) (works : (s.slot i).live.state ≠ .idle) :
    KeepsAtRest s (takeHalf i h s) :=
  KeepsAtRest.trans (t := activate i h s) (keepsAtRest_setSlot (by simp) fun k => absurd k works)
    (keepsAtRest_of_eq (by simp [takeHalf]))

theorem keepsAtRest_removeIndex (i : Fin 8) (h : Half) (s : State) : KeepsAtRest s (removeIndex i h s) :=
  keepsAtRest_of_eq (by simp)

theorem keepsAtRest_reclaim {i : Fin 8} {s : State} (h : Half) (works : (s.slot i).live.state ≠ .idle) :
    KeepsAtRest s (reclaim i h s) :=
  KeepsAtRest.raised ((keepsAtRest_removeIndex i h s).trans (keepsAtRest_takeHalf h works))

theorem keepsAtRest_emptyHalf (i : Fin 8) (h : Half) (s : State) : KeepsAtRest s (emptyHalf i h s) :=
  (keepsAtRest_setRecord s i h (.cleared .empty)).trans (keepsAtRest_of_eq (by simp [emptyHalf]))

theorem keepsAtRest_listFull (i : Fin 8) (h : Half) (s : State) : KeepsAtRest s (listFull i h s) :=
  KeepsAtRest.raised ((keepsAtRest_setRecord s i h { s.record i h with state := .full, captureNumber := s.capture.counter }).trans
    (keepsAtRest_of_eq ⟨rfl, rfl, rfl, rfl⟩))

theorem listFull_live (i j : Fin 8) (h : Half) (s : State) : ((listFull i h s).slot j).live = (s.slot j).live := by
  have e : (listFull i h s).slots =
      (s.setRecord i h { s.record i h with state := .full, captureNumber := s.capture.counter }).slots := by
    simp [listFull]
  rw [slot_congr e]
  by_cases k : j = i
  · subst k
    simp
  · rw [slot_of_setRecord_ne s h _ k]

theorem keepsAtRest_halfFull (i : Fin 8) (h : Half) (s : State) : KeepsAtRest s (halfFull i h s) := by
  unfold halfFull
  split
  · rename_i k
    exact (keepsAtRest_listFull i h s).trans (keepsAtRest_reclaim h (by simp [listFull_live, k.1]))
  · exact keepsAtRest_listFull i h s

theorem keepsAtRest_sealIfWritten (i : Fin 8) (h : Half) (s : State) : KeepsAtRest s (sealIfWritten i h s) := by
  unfold sealIfWritten
  split
  · exact keepsAtRest_halfFull i h s
  · exact .refl s

theorem keepsAtRest_sealAtEnd (i : Fin 8) (h : Half) (s : State) : KeepsAtRest s (sealAtEnd i h s) := by
  unfold sealAtEnd
  split
  · exact keepsAtRest_halfFull i h s
  · exact .refl s

/-! ## Completion (R71, R72) -/

theorem keepsAtRest_toIdle (i : Fin 8) (s : State) : KeepsAtRest s (toRest i .idle s) :=
  keepsAtRest_setLive fun _ => rfl

theorem keepsAtRest_nextHalf {i : Fin 8} {s : State} (h : Half) (works : (s.slot i).live.state ≠ .idle) :
    KeepsAtRest s (nextHalf i h s) := by
  have stalls : KeepsAtRest s (toRest i .stalled s) := keepsAtRest_setLive fun k => absurd k works
  unfold nextHalf
  split
  · exact keepsAtRest_takeHalf h works
  · exact keepsAtRest_reclaim h works
  all_goals exact stalls

theorem keepsAtRest_sealed (i : Fin 8) (h : Half) (s : State) : KeepsAtRest s (s.setSlot i ((s.slot i).sealed h)) :=
  keepsAtRest_setSlot (by simp [Slot.sealed]) (by simp [Slot.sealed])

theorem keepsAtRest_complete {i : Fin 8} {s : State} (h : Half) (works : (s.slot i).live.state ≠ .idle) :
    KeepsAtRest s (complete i h s) :=
  (keepsAtRest_sealed i h s).trans (keepsAtRest_nextHalf _ (by simpa [Slot.sealed] using works))

theorem keepsAtRest_truncate (i : Fin 8) (h : Half) (s : State) : KeepsAtRest s (truncate i h s) :=
  (keepsAtRest_setSlot (by simp [Slot.sealed]) (by simp [Slot.sealed])).trans
    ((keepsAtRest_toIdle i _).trans (keepsAtRest_sealIfWritten i h _))

/-! ## A slot's sample, triggers and gaps -/

theorem keepsAtRest_afterPost {i : Fin 8} {s : State} (h : Half) (works : (s.slot i).live.state ≠ .idle) :
    KeepsAtRest s (afterPost i h s) := by
  unfold afterPost
  split
  · exact keepsAtRest_complete h works
  · split
    · exact KeepsAtRest.raised (keepsAtRest_setLive id)
    · exact .refl s

theorem keepsAtRest_loseSample (i : Fin 8) (h : Half) (s : State) : KeepsAtRest s (loseSample i h s) :=
  KeepsAtRest.raised (keepsAtRest_setRecord s i h _)

theorem keepsAtRest_storeSample (i : Fin 8) (h : Half) (v : Sample) (t : Tick) (s : State) :
    KeepsAtRest s (storeSample i h v t s) := by
  have arrives : KeepsAtRest s (workArrives { s with queue := s.queue ++ [(s.slot i).entry i h v] }) :=
    keepsAtRest_of_eq (by simp)
  have same : (workArrives { s with queue := s.queue ++ [(s.slot i).entry i h v] }).slot i = s.slot i :=
    slot_congr (by simp) i
  have stored := arrives.trans (keepsAtRest_setSlot (i := i) (x := (s.slot i).stored h t) (by simp [same, Slot.stored])
    (by simp [same, Slot.stored]))
  unfold storeSample
  split
  · rename_i post
    exact stored.trans (keepsAtRest_afterPost h (by simp [Slot.stored, post]))
  · exact stored

theorem keepsAtRest_slotSample (i : Fin 8) (v : Sample) (t : Tick) (s : State) : KeepsAtRest s (slotSample i v t s) := by
  have receives : ∀ h, KeepsAtRest s
      (if Config.queueCapacity ≤ s.queue.length then loseSample i h s else storeSample i h v t s) := fun h => by
    split
    · exact keepsAtRest_loseSample i h s
    · exact keepsAtRest_storeSample i h v t s
  unfold slotSample
  split
  · exact receives _
  · exact receives _
  all_goals exact .refl s

theorem keepsAtRest_trigger (i : Fin 8) (source : Nat) (t : Tick) (s : State) : KeepsAtRest s (trigger i source t s).1 := by
  unfold trigger
  split
  · exact .refl s
  · exact (KeepsAtRest.refl s).raised
  · rename_i armed
    split
    · exact keepsAtRest_setSlot (by simp [Slot.triggered]) (by simp [armed])
    · exact .refl s
  · rename_i post
    split
    · refine keepsAtRest_setSlot ?_ (by simp [post])
      unfold Slot.retriggered
      split <;> simp [Slot.retriggerIgnored, Slot.retriggerExtended]
    · exact .refl s

theorem keepsAtRest_countGap (i : Fin 8) (s : State) : KeepsAtRest s (countGap i s) := by
  unfold countGap
  split
  · exact keepsAtRest_setRecord s i _ _
  · exact .refl s

/-! ## A watch's sample and its fire -/

theorem qualified_config (x : Watch) (k : Nat) : (x.qualified k).1.config = x.config := by
  unfold Watch.qualified
  split <;> rfl

theorem levelMove_config (x : Watch) (side : Side) : (x.levelMove side).1.config = x.config := by
  unfold Watch.levelMove
  split <;> simp [qualified_config]

theorem crossingMove_config (x : Watch) (edge : Edge) : (x.crossingMove edge).1.config = x.config := by
  unfold Watch.crossingMove
  split <;> rfl

theorem measureMove_config (x : Watch) (edge : Edge) (t : Tick) : (x.measureMove edge t).1.config = x.config := by
  unfold Watch.measureMove
  split <;> rfl

theorem measuringMove_config (x : Watch) (edge : Edge) (t : Tick) : (x.measuringMove edge t).1.config = x.config := by
  unfold Watch.measuringMove
  (repeat' split) <;> simp [measureMove_config, Watch.entering]

/-- A sample moves a watch's live fields alone. -/
theorem onSample_config (x : Watch) (v : Sample) (t : Tick) : (x.onSample v t).1.config = x.config := by
  unfold Watch.onSample
  split <;> simp [levelMove_config, crossingMove_config, measuringMove_config]

theorem keepsAtRest_fireWatch (w : Fin 32) (t : Tick) (s : State) : KeepsAtRest s (fireWatch w t s) := by
  have asked : KeepsAtRest s (requestTrigger w t s).1 := by
    unfold requestTrigger
    split
    · exact keepsAtRest_trigger _ _ _ _
    · exact .refl s
  exact KeepsAtRest.raised (asked.trans (keepsAtRest_setWatch rfl id))

theorem keepsAtRest_watchSample (w : Fin 32) (v : Sample) (t : Tick) (s : State) : KeepsAtRest s (watchSample w v t s) := by
  have moved : KeepsAtRest s (s.setWatch w ((s.watch w).onSample v t).1) :=
    keepsAtRest_setWatch (onSample_config _ v t) fun off => by rw [onSample_off v t off]; exact off
  unfold watchSample
  dsimp only
  split
  · exact moved.trans (keepsAtRest_fireWatch w t _)
  · exact moved

/-! ## Turns -/

theorem keepsAtRest_takeTurn (s : State) : KeepsAtRest s (takeTurn s) := by
  unfold takeTurn
  split
  · exact .refl s
  · rename_i x _
    split
    · exact keepsAtRest_of_eq ⟨rfl, rfl, rfl, rfl⟩
    · have moved : KeepsAtRest s { s with handing := x.next } := keepsAtRest_of_eq ⟨rfl, rfl, rfl, rfl⟩
      split
      · unfold handToWatch
        split
        · exact moved.trans (keepsAtRest_watchSample _ _ _ _)
        · exact moved
      · unfold handToSlot
        split
        · exact moved.trans (keepsAtRest_slotSample _ _ _ _)
        · exact moved

theorem keepsAtRest_takeTurns (n : Nat) (s : State) : KeepsAtRest s (takeTurns n s) := by
  induction n generalizing s with
  | zero => exact .refl s
  | succ n ih => exact (keepsAtRest_takeTurn s).trans (ih _)

theorem keepsAtRest_finishHanding (s : State) : KeepsAtRest s (finishHanding s) := by
  unfold finishHanding
  split
  · exact .refl s
  · exact (keepsAtRest_takeTurns _ s).trans (keepsAtRest_of_eq ⟨rfl, rfl, rfl, rfl⟩)

/-! ## Taking a frame -/

@[simp] theorem watch_restartWatches (e : Fin 64) (s : State) (w : Fin 32) :
    (restartWatches e s).watch w =
      if (s.watch w).config.channel = e ∧ (s.watch w).state ≠ .off then (s.watch w).started else s.watch w := by
  simp [restartWatches, State.watch]

@[simp] theorem slot_restartWatches (e : Fin 64) (s : State) (i : Fin 8) : (restartWatches e s).slot i = s.slot i :=
  slot_congr (by simp) i

theorem keepsAtRest_restartWatches (e : Fin 64) (s : State) : KeepsAtRest s (restartWatches e s) where
  watchConfig w := by
    rw [watch_restartWatches]
    split
    · rfl
    · rfl
  watchOff w off := by simp [off]
  slotConfig i := by rw [slot_restartWatches]
  slotIdle i h := by rwa [slot_restartWatches]
  u2d := by simp
  d2u := by simp

theorem keepsAtRest_takeGap (e : Fin 64) (bound : Option (Fin 8)) (s : State) : KeepsAtRest s (takeGap e bound s) := by
  unfold takeGap
  split
  · exact (keepsAtRest_restartWatches e s).trans (keepsAtRest_countGap _ _)
  · exact keepsAtRest_restartWatches e s

theorem keepsAtRest_takeFrame (e : Fin 64) (f : Frame) (s : State) : KeepsAtRest s (takeFrame e f s) := by
  have took : KeepsAtRest s (s.setChannel e ((s.channel e).took (sampleSequence f) (sampleTimestamp f))) :=
    keepsAtRest_of_eq ⟨rfl, rfl, rfl, rfl⟩
  unfold takeFrame
  dsimp only
  split
  · exact (took.trans (keepsAtRest_takeGap e _ _)).trans (keepsAtRest_of_eq ⟨rfl, rfl, rfl, rfl⟩)
  · exact took.trans (keepsAtRest_of_eq ⟨rfl, rfl, rfl, rfl⟩)

/-! ## The end of a burst -/

theorem keepsAtRest_endBurst (entries : List QueueEntry) (s : State) : KeepsAtRest s (endBurst entries s) := by
  have written : KeepsAtRest s (burstWritten entries s) := keepsAtRest_of_eq (by simp)
  unfold endBurst
  split
  · exact written.trans (keepsAtRest_of_eq (by simp))
  · rename_i e _
    exact (written.trans (keepsAtRest_sealAtEnd e.slot e.half _)).trans (keepsAtRest_of_eq (by simp))

end Sys2Proof.Machine
end

section
/-! SUPPORT. The channel map's invariant through every step: keys and bindings unique, enabled watches on valid entries, working slots
bound, a frame on its way with its entry (R5, R6, R15, R34, R58). -/

namespace Sys2Proof.Machine

/-! ## What the invariant rests on -/

/-- Two entries with the same valid mark, source ID and bound slot. -/
def MapEntry.keysAs (y x : MapEntry) : Prop :=
  y.valid = x.valid ∧ y.sourceId = x.sourceId ∧ y.bound = x.bound

theorem took_keysAs (x : MapEntry) (sequence : BitVec 8) (timestamp : Tick) : (x.took sequence timestamp).keysAs x :=
  ⟨rfl, rfl, rfl⟩

theorem unsync_keysAs (x : MapEntry) : x.unsync.keysAs x :=
  ⟨rfl, rfl, rfl⟩

theorem frameAgrees {s : State} (m : s.mapAgrees) : s.handingAgrees :=
  m.2.1

theorem keysAs_of_channels {s t : State} (h : t.channels = s.channels) (e : Fin 64) : (t.channel e).keysAs (s.channel e) := by
  rw [channel_congr h]
  exact ⟨rfl, rfl, rfl⟩

/-- The invariant reads four tables and nothing else. -/
theorem mapAgrees_congr {s t : State} (m : s.mapAgrees)
    (same : t.channels = s.channels ∧ t.handing = s.handing ∧ t.watches = s.watches ∧ t.slots = s.slots) : t.mapAgrees := by
  obtain ⟨c, h, w, sl⟩ := same
  simpa only [State.mapAgrees, State.mapUnique, State.handingAgrees, channel_congr c, watch_congr w, slot_congr sl, h] using m

/-- With the keys of every entry kept, no watch enabled or moved to another entry and no slot armed, only the frame on its way is left
to check. -/
theorem mapAgrees_of_keys {s t : State} (m : s.mapAgrees) (keys : ∀ e, (t.channel e).keysAs (s.channel e))
    (watches : ∀ w, (t.watch w).state ≠ .off →
      (s.watch w).state ≠ .off ∧ (t.watch w).config.channel = (s.watch w).config.channel)
    (slots : ∀ i, (t.slot i).live.state ≠ .idle → (s.slot i).live.state ≠ .idle) (handing : t.handingAgrees) : t.mapAgrees := by
  obtain ⟨unique, -, enabled, bound⟩ := m
  have valid : ∀ e, (t.channel e).valid = (s.channel e).valid := fun e => (keys e).1
  have source : ∀ e, (t.channel e).sourceId = (s.channel e).sourceId := fun e => (keys e).2.1
  have binds : ∀ e, (t.channel e).bound = (s.channel e).bound := fun e => (keys e).2.2
  refine ⟨?_, handing, ?_, ?_⟩
  · simpa only [State.mapUnique, valid, source, binds] using unique
  · intro w h
    obtain ⟨on, same⟩ := watches w h
    rw [valid, same]
    exact enabled w on
  · intro i h
    simpa only [valid, binds] using bound i (slots i h)

/-- The frame on its way stays its entry's while keys and frame stay. -/
theorem handingAgrees_of_keys {s t : State} (a : s.handingAgrees) (keys : ∀ e, (t.channel e).keysAs (s.channel e))
    (h : t.handing = s.handing) : t.handingAgrees := by
  intro x e
  obtain ⟨valid, -, bound⟩ := keys x.entry
  rw [valid, bound]
  exact a x (h ▸ e)

theorem handingAgrees_of_none {s : State} (h : s.handing = none) : s.handingAgrees := by
  simp [State.handingAgrees, h]

/-- Operations that wake nothing. -/
theorem mapAgrees_of_rest {s t : State} (m : s.mapAgrees) (keys : ∀ e, (t.channel e).keysAs (s.channel e))
    (rest : KeepsAtRest s t) (handing : t.handingAgrees) : t.mapAgrees :=
  mapAgrees_of_keys m keys (fun w h => ⟨fun off => h (rest.watchOff w off), by rw [rest.watchConfig]⟩)
    (fun i h idle => h (rest.slotIdle i idle)) handing

/-- Operations that wake nothing and touch neither map nor frame. -/
theorem mapAgrees_of_still {s t : State} (m : s.mapAgrees) (rest : KeepsAtRest s t)
    (still : t.channels = s.channels ∧ t.handing = s.handing) : t.mapAgrees := by
  obtain ⟨channels, handing⟩ := still
  have keys := keysAs_of_channels channels
  exact mapAgrees_of_rest m keys rest (handingAgrees_of_keys (frameAgrees m) keys handing)

/-! ## Turns and frames -/

/-- The handing after a turn has a sample left and a turn to take. -/
theorem next_agrees {x y : Handing} (h : x.next = some y) (some_left : x.rest ≠ []) (short : x.rest.length ≤ 32) :
    y.rest ≠ [] ∧ y.rest.length ≤ 32 ∧ y.turn ≤ 32 := by
  unfold Handing.next at h
  split at h
  · cases h
    exact ⟨some_left, short, by simpa using Nat.succ_le_of_lt ‹_›⟩
  · split at h
    · exact absurd h (by simp)
    · rename_i later
      cases h
      have : x.rest.tail.length ≤ 32 := by simpa using Nat.le_succ_of_le short
      exact ⟨by simp, later ▸ this, by simp⟩

theorem takeTurn_keeps_mapAgrees {s : State} (m : s.mapAgrees) : (takeTurn s).mapAgrees := by
  cases h : s.handing with
  | none => rwa [takeTurn_of_none h]
  | some x =>
    obtain ⟨left, short, -, valid, bound⟩ := frameAgrees m x h
    have channels : ∀ e, (takeTurn s).channel e = s.channel e := channel_congr (by simp)
    refine mapAgrees_of_rest m (keysAs_of_channels (by simp)) (keepsAtRest_takeTurn s) ?_
    intro y e
    rw [takeTurn_handing h left] at e
    obtain ⟨left', short', turn⟩ := next_agrees e left short
    obtain ⟨entry, same⟩ := next_keeps e
    exact ⟨left', short', turn, by rw [channels, entry, valid], by rw [channels, entry, same, bound]⟩

theorem finishHanding_keeps_mapAgrees {s : State} (m : s.mapAgrees) : (finishHanding s).mapAgrees :=
  mapAgrees_of_rest m (keysAs_of_channels (by simp)) (keepsAtRest_finishHanding s) (handingAgrees_of_none (by simp))

/-- The lookup finds a valid entry with the source ID asked for (R9). -/
theorem lookup_some {s : State} {source : BitVec 12} {e : Fin 64} (h : s.lookup source = some e) :
    (s.channel e).valid = true ∧ (s.channel e).sourceId = source := by
  simpa using List.find?_some h

/-- The frame check of R8, item by item. -/
theorem offeredToMap_iff (f : Frame) :
    offeredToMap f = true ↔ goodCrc f = true ∧ frameKind f = 1 ∧ f.length ≤ 78 ∧ 1 ≤ sampleCount f ∧ sampleCount f ≤ 32 ∧
      f.length = 10 + 2 * sampleCount f := by
  simp only [offeredToMap, Bool.and_eq_true, beq_iff_eq, decide_eq_true_eq, and_assoc]
  exact Iff.rfl

theorem takeFrame_channels (e : Fin 64) (f : Frame) (s : State) :
    (takeFrame e f s).channels = (s.setChannel e ((s.channel e).took (sampleSequence f) (sampleTimestamp f))).channels := by
  unfold takeFrame
  dsimp only
  split
  · simp
  · rfl

theorem takeFrame_handing (e : Fin 64) (f : Frame) (s : State) :
    (takeFrame e f s).handing = some ⟨e, (s.channel e).bound, 0, timedSamples (s.channel e).interval f⟩ := rfl

@[simp] theorem channel_takeFrame (e : Fin 64) (f : Frame) (s : State) :
    (takeFrame e f s).channel e = (s.channel e).took (sampleSequence f) (sampleTimestamp f) := by
  rw [channel_congr (takeFrame_channels e f s), channel_setChannel]

theorem channel_takeFrame_ne {e e' : Fin 64} (f : Frame) (s : State) (n : e' ≠ e) :
    (takeFrame e f s).channel e' = s.channel e' := by
  rw [channel_congr (takeFrame_channels e f s), channel_setChannel_ne _ _ n]

@[simp] theorem timedSamples_length (interval : BitVec 16) (f : Frame) : (timedSamples interval f).length = sampleCount f := by
  simp [timedSamples, frameSamples]

theorem takeFrame_keeps_mapAgrees {s : State} (m : s.mapAgrees) {e : Fin 64} {f : Frame} (valid : (s.channel e).valid = true)
    (some_sample : 1 ≤ sampleCount f) (short : sampleCount f ≤ 32) : (takeFrame e f s).mapAgrees := by
  refine mapAgrees_of_rest m (fun e' => ?_) (keepsAtRest_takeFrame e f s) ?_
  · by_cases n : e' = e
    · subst n
      rw [channel_takeFrame]
      exact took_keysAs _ _ _
    · rw [channel_takeFrame_ne f s n]
      exact ⟨rfl, rfl, rfl⟩
  · intro x h
    rw [takeFrame_handing] at h
    cases h
    have samples := timedSamples_length (s.channel e).interval f
    refine ⟨List.ne_nil_of_length_pos (Nat.lt_of_lt_of_eq some_sample samples.symm), by simpa using short, by simp, ?_, ?_⟩
    · simpa [MapEntry.took] using valid
    · simp [MapEntry.took]

theorem routeU_keeps_mapAgrees {s : State} (m : s.mapAgrees) (f : Frame) : (routeU f s).mapAgrees := by
  have forwarded : (forwardU2D f s).mapAgrees := mapAgrees_congr m (by simp)
  unfold routeU
  dsimp only
  split
  · rename_i offered
    obtain ⟨-, -, -, some_sample, short, -⟩ := (offeredToMap_iff f).mp offered
    unfold offerToMap
    split
    · rename_i e found
      exact takeFrame_keeps_mapAgrees forwarded (lookup_some found).1 some_sample short
    · exact forwarded
  · exact forwarded

/-! ## Symbols -/

theorem frameEnd_keeps_mapAgrees {s : State} (m : s.mapAgrees) (p : Port) (f : RxFrame) : (frameEnd p f s).mapAgrees := by
  have closed : (s.setPort p { s.port p with frame := none }).mapAgrees := mapAgrees_congr m (by simp)
  unfold frameEnd
  dsimp only
  split
  · exact closed
  · cases p with
    | u => exact routeU_keeps_mapAgrees closed f.octets
    | d => exact mapAgrees_congr closed (by simp [route])

theorem assemble_keeps_mapAgrees {s : State} (m : s.mapAgrees) (p : Port) (symbol : Symbol) :
    (assemble p symbol s).mapAgrees := by
  unfold assemble
  split
  case h_4 f _ => exact frameEnd_keeps_mapAgrees m p f
  all_goals exact mapAgrees_congr m (by simp)

theorem receiveSymbol_keeps_mapAgrees {s : State} (m : s.mapAgrees) (p : Port) (symbol : Symbol) :
    (receiveSymbol p symbol s).mapAgrees := by
  unfold receiveSymbol
  split
  case h_3 =>
    have settled : (settleEarlier p symbol s).mapAgrees := by
      unfold settleEarlier
      split
      · exact finishHanding_keeps_mapAgrees m
      · exact m
    unfold upSymbol
    dsimp only
    split
    · exact mapAgrees_congr settled (by simp)
    · exact assemble_keeps_mapAgrees (mapAgrees_congr settled (by simp)) p symbol
  all_goals exact mapAgrees_congr m (by simp)

/-! ## Requests -/

/-- An execution keeps the invariant when its owner does: the response touches none of the four tables. -/
theorem execute_keeps_mapAgrees {s : State} (m : s.mapAgrees) (form : Request → Bool) (run : Execution)
    (owner : ∀ i r, (run i r s).1.mapAgrees) : (execute form run s).mapAgrees := by
  rcases execute_cases form run s with same | ⟨i, t, -, -, ⟨status, e⟩ | ⟨-, e⟩⟩
  · rwa [same]
  · rw [e]
    exact mapAgrees_congr m (by simp)
  · rw [e]
    exact mapAgrees_congr (owner i t.request) (by simp)

theorem withArg_keeps_mapAgrees {α : Type} {s : State} (m : s.mapAgrees) (take : MgmtWord → Option α)
    (run : α → State → State × Reply) (owner : ∀ a, (run a s).1.mapAgrees) (i : Fin 4) (r : Request) :
    (withArg take run i r s).1.mapAgrees := by
  unfold withArg
  split
  · exact owner _
  · exact m

/-! ## WRITE to the channel map (R4 to R7, R15) -/

theorem channel_of_writtenMap {r : Request} {s t : State} (h : t.channels = writtenMap r s) (e : Fin 64) :
    t.channel e =
      if writesEntry r e then
        ((s.channel e).withWords (r.covered (4 * e.val)) (r.covered (4 * e.val + 1))).unsync
      else s.channel e := by
  simp [State.channel, h, writtenMap]

theorem clash_iff (x y : MapEntry) :
    clash x y = true ↔ x.valid = true ∧ y.valid = true ∧
      (x.sourceId = y.sourceId ∨ (x.bound ≠ none ∧ x.bound = y.bound)) := by
  simp [clash, and_assoc, ← Option.isSome_iff_ne_none]

theorem clash_comm {x y : MapEntry} (h : clash x y = true) : clash y x = true := by
  obtain ⟨vx, vy, same⟩ := (clash_iff x y).mp h
  refine (clash_iff y x).mpr ⟨vy, vx, same.imp Eq.symm ?_⟩
  rintro ⟨bound, e⟩
  exact ⟨e ▸ bound, e.symm⟩

/-- A map holds a clash when two of its entries clash, in whatever order they stand (R6). -/
theorem duplicated_iff (m : Vector MapEntry 64) :
    duplicated m = true ↔ ∃ e f : Fin 64, e ≠ f ∧ clash m[e] m[f] = true := by
  simp only [duplicated, any_finRange, Bool.and_eq_true, decide_eq_true_eq]
  constructor
  · rintro ⟨e, f, lt, h⟩
    exact ⟨e, f, Fin.ne_of_lt lt, h⟩
  · rintro ⟨e, f, ne, h⟩
    rcases Nat.lt_or_gt_of_ne (fun k => ne (Fin.ext k)) with lt | gt
    · exact ⟨e, f, lt, h⟩
    · exact ⟨f, e, gt, clash_comm h⟩

theorem mapUnique_iff (s : State) : s.mapUnique ↔ duplicated s.channels = false := by
  rw [← Bool.not_eq_true, duplicated_iff]
  simp only [clash_iff]
  constructor
  · rintro unique ⟨e, f, ne, ve, vf, same⟩
    obtain ⟨source, bound⟩ := unique e f ne ve vf
    exact same.elim source fun b => bound b.1 b.2
  · intro none e f ne ve vf
    exact ⟨fun k => none ⟨e, f, ne, ve, vf, .inl k⟩, fun b k => none ⟨e, f, ne, ve, vf, .inr ⟨b, k⟩⟩⟩

/-- An entry is locked by an enabled watch that references it or by a working slot that it binds (R5). -/
theorem entryLocked_iff (s : State) (e : Fin 64) :
    s.entryLocked e = true ↔ (∃ w, (s.watch w).config.channel = e ∧ (s.watch w).state ≠ .off) ∨
      ((s.channel e).valid = true ∧ ∃ j, (s.channel e).bound = some j ∧ (s.slot j).live.state ≠ .idle) := by
  simp only [State.entryLocked, Bool.or_eq_true, any_finRange, Bool.and_eq_true, decide_eq_true_eq]
  cases (s.channel e).bound <;> simp

theorem handingLeft_some {r : Request} {s : State} {x : Handing} (h : handingLeft r s = some x) :
    s.handing = some x ∧ writesEntry r x.entry = false := by
  simpa [handingLeft, Option.filter_eq_some_iff] using h

/-- An accepted WRITE leaves the entries that a watch or slot holds as they are, and no clash. -/
theorem mapAgrees_of_writtenMap {r : Request} {s t : State} (m : s.mapAgrees)
    (unlocked : ∀ e, writesEntry r e = true → s.entryLocked e = false) (unique : duplicated (writtenMap r s) = false)
    (channels : t.channels = writtenMap r s) (handing : t.handing = handingLeft r s) (watches : t.watches = s.watches)
    (slots : t.slots = s.slots) : t.mapAgrees := by
  obtain ⟨-, frame, enabled, bound⟩ := m
  have kept : ∀ e, writesEntry r e = false → t.channel e = s.channel e := fun e unwritten => by
    rw [channel_of_writtenMap channels, if_neg (by simp [unwritten])]
  have held : ∀ e, ((∃ w, (s.watch w).config.channel = e ∧ (s.watch w).state ≠ .off) ∨
      ((s.channel e).valid = true ∧ ∃ j, (s.channel e).bound = some j ∧ (s.slot j).live.state ≠ .idle)) →
      t.channel e = s.channel e := fun e lock => by
    refine kept e ?_
    by_contra written
    simp [unlocked e (by simpa using written), ← entryLocked_iff] at lock
  refine ⟨(mapUnique_iff t).mpr (channels ▸ unique), ?_, ?_, ?_⟩
  · intro x h
    obtain ⟨h, unwritten⟩ := handingLeft_some (handing ▸ h)
    rw [kept _ unwritten]
    exact frame x h
  · intro w on
    rw [watch_congr watches] at on ⊢
    rw [held _ (.inl ⟨w, rfl, on⟩)]
    exact enabled w on
  · intro i works
    rw [slot_congr slots] at works
    obtain ⟨e, valid, binds⟩ := bound i works
    refine ⟨e, ?_⟩
    rw [held e (.inr ⟨valid, i, binds, works⟩)]
    exact ⟨valid, binds⟩

theorem writeMap_keeps_mapAgrees {s : State} (m : s.mapAgrees) (r : Request) : (writeMap r s).1.mapAgrees := by
  unfold writeMap
  split
  · exact m
  · split
    · exact m
    · split
      · exact m
      · rename_i unlocked unique
        refine mapAgrees_of_writtenMap m (fun e written => ?_) (by simpa using unique) (by simp [acceptedWith])
          (by simp [acceptedWith]) (by simp [acceptedWith]) (by simp [acceptedWith])
        simp only [any_finRange, Bool.and_eq_true] at unlocked
        simpa using fun lock => unlocked ⟨e, written, lock⟩

/-! ## The other owners of a WRITE -/

/-- A WRITE to the watch table finds every watch it writes OFF (R22). -/
theorem mapAgrees_of_writtenWatches {r : Request} {s t : State} (m : s.mapAgrees)
    (off : ∀ w, writesWatch r w = true → (s.watch w).state = .off) (watches : t.watches = writtenWatches r s)
    (same : t.channels = s.channels ∧ t.handing = s.handing ∧ t.slots = s.slots) : t.mapAgrees := by
  obtain ⟨channels, handing, slots⟩ := same
  have keys := keysAs_of_channels channels
  refine mapAgrees_of_keys m keys (fun w on => ?_) (fun i h => by rwa [← slot_congr slots])
    (handingAgrees_of_keys (frameAgrees m) keys handing)
  have written : t.watch w = if writesWatch r w then { s.watch w with config := writtenWatch r s w } else s.watch w := by
    simp [State.watch, watches, writtenWatches]
  rw [written] at on ⊢
  split at on
  · exact absurd (off w ‹_›) on
  · rw [if_neg ‹_›]
    exact ⟨on, rfl⟩

theorem writeWatches_keeps_mapAgrees {s : State} (m : s.mapAgrees) (r : Request) : (writeWatches r s).1.mapAgrees := by
  unfold writeWatches
  split
  · exact m
  · split
    · exact m
    · rename_i unlocked
      simp only [any_finRange, Bool.and_eq_true, decide_eq_true_eq] at unlocked
      refine mapAgrees_of_writtenWatches (r := r) m (fun w written => ?_) (by simp [acceptedWith]) (by simp [acceptedWith])
      by_contra on
      exact unlocked ⟨w, written, on⟩

/-- A WRITE to the slot table moves no slot. -/
theorem mapAgrees_of_writtenSlots {r : Request} {s t : State} (m : s.mapAgrees) (slots : t.slots = writtenSlots r s)
    (same : t.channels = s.channels ∧ t.handing = s.handing ∧ t.watches = s.watches) : t.mapAgrees := by
  obtain ⟨channels, handing, watches⟩ := same
  have keys := keysAs_of_channels channels
  refine mapAgrees_of_keys m keys (fun w on => ?_) (fun i works => ?_) (handingAgrees_of_keys (frameAgrees m) keys handing)
  · rw [watch_congr watches] at on ⊢
    exact ⟨on, rfl⟩
  · have live : (t.slot i).live = (s.slot i).live := by
      simp only [State.slot, slots, writtenSlots, Fin.getElem_fin, Vector.getElem_ofFn]
      split <;> rfl
    rwa [live] at works

theorem writeSlots_keeps_mapAgrees {s : State} (m : s.mapAgrees) (r : Request) : (writeSlots r s).1.mapAgrees := by
  unfold writeSlots
  split
  · exact m
  · split
    · exact m
    · exact mapAgrees_of_writtenSlots (r := r) m (by simp [acceptedWith]) (by simp [acceptedWith])

theorem runWrite_keeps_mapAgrees {s : State} (m : s.mapAgrees) (i : Fin 4) (r : Request) : (runWrite i r s).1.mapAgrees := by
  unfold runWrite
  split
  · exact m
  · unfold writeOwner
    split
    · refine mapAgrees_congr m ?_
      unfold writeControl writeSettings writeCountSettings setCountTable writeMode
      (repeat' split) <;> simp [refusedWith, acceptedWith]
    · exact writeMap_keeps_mapAgrees m r
    · exact writeWatches_keeps_mapAgrees m r
    · exact writeSlots_keeps_mapAgrees m r
    · refine mapAgrees_congr m ?_
      unfold writeNotice
      split <;> simp [refusedWith, acceptedWith]
    · refine mapAgrees_congr m ?_
      unfold writeTiming
      (repeat' split) <;> simp [refusedWith, acceptedWith]
    · exact m

/-! ## Commands -/

theorem slotBound_iff (s : State) (i : Fin 8) :
    s.slotBound i = true ↔ ∃ e, (s.channel e).valid = true ∧ (s.channel e).bound = some i := by
  simp [State.slotBound]

/-- ARM-SLOT changes its own slot's state and no other's. -/
theorem armTakes_slot_ne {i j : Fin 8} (s : State) (n : j ≠ i) : (armTakes i s).slot j = s.slot j := by
  have takes : ∀ h (s : State), (armHalf i h s).slot j = s.slot j := fun h s => by
    rw [slot_congr (t := armHalf i h s) (s := activate i h s) (by simp [armHalf])]
    exact slot_setSlot_ne s _ n
  have rests : (toRest i .stalled s).slot j = s.slot j := slot_of_setLive_ne s _ n
  unfold armTakes
  split
  · exact takes _ s
  · split
    · exact takes _ s
    · split
      · rename_i h _ _
        rw [slot_congr (t := armReclaim i h s) (s := armHalf i h (removeIndex i h s)) (by simp [armReclaim]), takes]
        exact slot_congr (by simp) j
      · exact rests
      · exact rests

@[simp] theorem armTakes_keeps (i : Fin 8) (s : State) :
    (armTakes i s).channels = s.channels ∧ (armTakes i s).handing = s.handing ∧ (armTakes i s).watches = s.watches := by
  unfold armTakes
  (repeat' split) <;> simp

/-- ARM-SLOT is accepted for a bound slot alone (R58). -/
theorem slotBound_of_armChecks {i : Fin 8} {s : State} (h : armChecks i s = none) : s.slotBound i = true := by
  unfold armChecks at h
  split at h
  · exact absurd h (by simp)
  · split at h
    · exact absurd h (by simp)
    · simpa using ‹¬ (!s.slotBound i) = true›

theorem armSlot_keeps_mapAgrees {s : State} (m : s.mapAgrees) (i : Fin 8) : (armSlot i s).1.mapAgrees := by
  unfold armSlot
  split
  · exact m
  · rename_i passed
    obtain ⟨e, valid, binds⟩ := (slotBound_iff s i).mp (slotBound_of_armChecks passed)
    obtain ⟨unique, frame, enabled, bound⟩ := m
    have channels : ∀ e, (acceptedWith (armTakes i (withdrawHold s))).1.channel e = s.channel e :=
      channel_congr (by simp [acceptedWith])
    have watches : ∀ w, (acceptedWith (armTakes i (withdrawHold s))).1.watch w = s.watch w := watch_congr (by simp [acceptedWith])
    have handing : (acceptedWith (armTakes i (withdrawHold s))).1.handing = s.handing := by simp [acceptedWith]
    refine ⟨?_, ?_, ?_, ?_⟩
    · simpa only [State.mapUnique, channels] using unique
    · simpa only [State.handingAgrees, channels, handing] using frame
    · simpa only [channels, watches] using enabled
    · intro j works
      simp only [channels]
      by_cases n : j = i
      · exact n ▸ ⟨e, valid, binds⟩
      · refine bound j ?_
        rwa [show (acceptedWith (armTakes i (withdrawHold s))).1.slot j = s.slot j from
          (armTakes_slot_ne _ n).trans (slot_congr (by simp) j)] at works

theorem disarmSlot_keeps_mapAgrees {s : State} (m : s.mapAgrees) (i : Fin 8) : (disarmSlot i s).1.mapAgrees := by
  have rests : (toRest i .idle s).mapAgrees := mapAgrees_of_still m (keepsAtRest_toIdle i s) (by simp)
  unfold disarmSlot
  split
  · exact m
  · exact mapAgrees_of_still rests (keepsAtRest_emptyHalf i _ _) (by simp [acceptedWith])
  · exact mapAgrees_of_still m (keepsAtRest_truncate i _ s) (by simp [acceptedWith])
  all_goals exact rests

theorem releaseHalf_keeps_mapAgrees {s : State} (m : s.mapAgrees) (i : Fin 8) (h : Half) : (releaseHalf i h s).1.mapAgrees := by
  have unlisted : KeepsAtRest s (removeIndex i h s) := keepsAtRest_removeIndex i h s
  unfold releaseHalf
  split
  · unfold releaseFull
    split
    · rename_i stalled
      have works : ((removeIndex i h s).slot i).live.state ≠ .idle := by
        rw [slot_congr (s := s) (by simp), stalled]
        simp
      exact mapAgrees_of_still m (unlisted.trans (keepsAtRest_takeHalf h works)) (by simp [acceptedWith])
    · exact mapAgrees_of_still m (unlisted.trans (keepsAtRest_emptyHalf i h _)) (by simp [acceptedWith])
  · exact m

theorem enableWatch_keeps_mapAgrees {s : State} (m : s.mapAgrees) (w : Fin 32) : (enableWatch w s).1.mapAgrees := by
  unfold enableWatch
  split
  · exact m
  · split
    · exact m
    · rename_i valid
      obtain ⟨unique, frame, enabled, bound⟩ := m
      refine ⟨unique, frame, fun v on => ?_, bound⟩
      by_cases n : v = w
      · subst n
        simpa [acceptedWith, Watch.started, Watch.entering, State.channel] using valid
      · simp only [acceptedWith, watch_setWatch_ne s _ n] at on ⊢
        exact enabled v on

theorem disableWatch_keeps_mapAgrees {s : State} (m : s.mapAgrees) (w : Fin 32) : (disableWatch w s).1.mapAgrees :=
  mapAgrees_of_still m (keepsAtRest_setWatch rfl fun _ => rfl) ⟨rfl, rfl⟩

@[simp] theorem clearCapture_channel (s : State) (e : Fin 64) : (clearCapture s).channel e = (s.channel e).unsync := by
  simp [clearCapture, State.channel]

@[simp] theorem clearCapture_watch (s : State) (w : Fin 32) : (clearCapture s).watch w = (s.watch w).stopped := by
  simp [clearCapture, State.watch]

@[simp] theorem clearCapture_slot (s : State) (i : Fin 8) : (clearCapture s).slot i = (s.slot i).resetCapture := by
  simp [clearCapture, State.slot]

theorem clearCapture_keeps_mapAgrees {s : State} (m : s.mapAgrees) : (clearCapture s).mapAgrees := by
  have keys : ∀ e, ((clearCapture s).channel e).keysAs (s.channel e) := fun e => by
    rw [clearCapture_channel]
    exact unsync_keysAs _
  have off : ∀ w, ((clearCapture s).watch w).state = .off := fun w => by simp [Watch.stopped, Watch.entering]
  have idle : ∀ i, ((clearCapture s).slot i).live.state = .idle := fun i => by simp [Slot.resetCapture, SlotLive.cleared]
  exact mapAgrees_of_keys m keys (fun w on => absurd (off w) on) (fun i works => absurd (idle i) works)
    (handingAgrees_of_keys (frameAgrees m) keys (by simp [clearCapture]))

theorem resetCapture_keeps_mapAgrees {s : State} (m : s.mapAgrees) : (resetCapture s).1.mapAgrees := by
  refine mapAgrees_congr (clearCapture_keeps_mapAgrees m) ?_
  unfold resetCapture
  split <;> simp [acceptedWith]

/-! ## Reset -/

theorem powerOn_mapAgrees (straps : BitVec 6) (free : Nat) (pending : List Instr) : (State.powerOn straps free pending).mapAgrees := by
  have invalid : ∀ e, ((State.powerOn straps free pending).channel e).valid = false := by
    simp [State.powerOn, State.channel, MapEntry.reset]
  have off : ∀ w, ((State.powerOn straps free pending).watch w).state = .off := by
    simp [State.powerOn, State.watch, Watch.reset]
  have idle : ∀ i, ((State.powerOn straps free pending).slot i).live.state = .idle := by
    simp [State.powerOn, State.slot, Slot.reset, SlotLive.cleared]
  refine ⟨fun e f _ valid => ?_, handingAgrees_of_none rfl, fun w on => absurd (off w) on, fun i works => absurd (idle i) works⟩
  simp [invalid] at valid

end Sys2Proof.Machine
end

section
/-! SUPPORT. StepKeepsTheChannelMap: the invariant through each command, and so through each step. -/

namespace Sys2Proof.Machine

/-- A WRITE row, whatever the form it waits for. -/
theorem executeWrite_keeps_mapAgrees {s : State} (m : s.mapAgrees) (form : Request → Bool) :
    (execute form runWrite s).mapAgrees :=
  execute_keeps_mapAgrees m form runWrite (runWrite_keeps_mapAgrees m)

/-- A COMMAND row with an argument. -/
theorem executeArg_keeps_mapAgrees {α : Type} {s : State} (m : s.mapAgrees) (form : Request → Bool) (take : MgmtWord → Option α)
    (run : α → State → State × Reply) (owner : ∀ a, (run a s).1.mapAgrees) : (execute form (withArg take run) s).mapAgrees :=
  execute_keeps_mapAgrees m form _ (withArg_keeps_mapAgrees m take run owner)

/-- Every command keeps the channel map's invariant. -/
theorem exec_keeps_mapAgrees {s t : State} (c : Instr) (m : s.mapAgrees) (h : exec c s = .next t) : t.mapAgrees := by
  cases c with
  | powerOnReset straps =>
    cases h
    exact powerOn_mapAgrees straps s.free s.pending
  | tapValue p symbols =>
    cases h
    split
    · exact foldl_inv State.mapAgrees _ (fun _ y k => receiveSymbol_keeps_mapAgrees k p y) symbols s m
    · exact m
  | pauseEnd p =>
    cases h
    split
    · exact mapAgrees_congr m (by simp)
    · exact m
  | lockedSymbol p y | receiverUp p y | oversizeFrame p y | lossOfAlignment p y =>
    cases h
    split
    · exact receiveSymbol_keeps_mapAgrees m p _
    · exact m
  | tapProvedFalse p =>
    cases h
    split
    · exact receiveSymbol_keeps_mapAgrees m p _
    · exact m
  | symbolReceived p y =>
    cases h
    exact receiveSymbol_keeps_mapAgrees m p y
  | frameCompletedU =>
    cases h
    split
    · exact finishHanding_keeps_mapAgrees (receiveSymbol_keeps_mapAgrees m _ _)
    · exact takeTurn_keeps_mapAgrees m
  | frameCompletedD =>
    cases h
    split
    · exact receiveSymbol_keeps_mapAgrees m _ _
    · exact m
  | read =>
    cases h
    refine execute_keeps_mapAgrees m _ _ fun i r => ?_
    unfold runRead
    split <;> exact m
  | fetch =>
    cases h
    refine execute_keeps_mapAgrees m _ _ fun i r => ?_
    unfold runFetch
    split
    · exact m
    · exact mapAgrees_congr m (by simp [placeRead])
  | write | writeChannelMap | writeWatch | writeSlot | writeTimingSet | writeCountTable | writeEnableSet | writeOrderList
  | writeExpressClass | writeCheckMode =>
    cases h
    exact executeWrite_keeps_mapAgrees m _
  | armSlot =>
    cases h
    exact executeArg_keeps_mapAgrees m _ _ _ (armSlot_keeps_mapAgrees m)
  | disarmSlot =>
    cases h
    exact executeArg_keeps_mapAgrees m _ _ _ (disarmSlot_keeps_mapAgrees m)
  | forceTrigger =>
    cases h
    exact executeArg_keeps_mapAgrees m _ _ _ fun i => mapAgrees_of_still m (keepsAtRest_trigger i 32 0 s) (by simp [forceTrigger])
  | releaseHalf =>
    cases h
    exact executeArg_keeps_mapAgrees m _ _ _ fun a => releaseHalf_keeps_mapAgrees m a.1 a.2
  | enableWatch =>
    cases h
    exact executeArg_keeps_mapAgrees m _ _ _ (enableWatch_keeps_mapAgrees m)
  | disableWatch =>
    cases h
    exact executeArg_keeps_mapAgrees m _ _ _ (disableWatch_keeps_mapAgrees m)
  | gate =>
    cases h
    exact executeArg_keeps_mapAgrees m _ _ _ fun _ => mapAgrees_congr m (by simp [setGate, acceptedWith])
  | ackNotice =>
    cases h
    exact executeArg_keeps_mapAgrees m _ _ _ fun _ => mapAgrees_congr m (by simp [ackNotice, acceptedWith])
  | clearFault =>
    cases h
    exact execute_keeps_mapAgrees m _ _ fun _ _ => mapAgrees_congr m (by simp [withoutArg, clearFaultRecord, acceptedWith])
  | memStart =>
    cases h
    refine execute_keeps_mapAgrees m _ _ fun _ _ => mapAgrees_congr m ?_
    unfold withoutArg memStart
    split <;> simp [acceptedWith, refusedWith]
  | memHold =>
    cases h
    refine execute_keeps_mapAgrees m _ _ fun _ _ => mapAgrees_congr m ?_
    unfold withoutArg memHold
    (repeat' split) <;> simp [acceptedWith, refusedWith]
  | resetCapture =>
    cases h
    exact execute_keeps_mapAgrees m _ _ fun _ _ => resetCapture_keeps_mapAgrees m
  | realign =>
    cases h
    refine executeArg_keeps_mapAgrees m _ _ _ fun p => mapAgrees_congr m ?_
    unfold realign
    dsimp only
    split <;> simp [acceptedWith]
  | burstEnd =>
    cases h
    split
    · exact mapAgrees_of_still m (keepsAtRest_endBurst _ s) (by simp)
    · exact m
  | fetchReadEnd | countTableWriteEnd | exitSequenceEnd | dFrameSent | uFrameSent =>
    cases h
    split
    · exact mapAgrees_congr m (by simp)
    · exact m
  | refreshDue | refreshEnd | initSequenceEnd | holdoffExpiry =>
    cases h
    split
    · exact mapAgrees_congr m (by simp)
    · exact m
  | closingOperationEnd =>
    cases h
    split
    · split <;> exact mapAgrees_congr m (by simp)
    · exact m

end Sys2Proof.Machine

open Sys2Proof.Machine in
/-- Settles O14: every command keeps the invariant, and a step on an empty queue touches none of the tables it reads. -/
theorem stepKeepsTheChannelMap : Obligations.StepKeepsTheChannelMap := by
  intro s t m h
  cases pending : s.pending with
  | nil =>
    rw [step_of_empty pending] at h
    cases h
    exact mapAgrees_congr m (by simp)
  | cons c rest =>
    have runs : step s = exec c (s.withQueue rest) := by simp [step, pending]
    rw [runs] at h
    exact exec_keeps_mapAgrees c (mapAgrees_congr m (by simp [State.withQueue])) h
end

section
/-! SUPPORT. A frame completed at the U port: what END inside a frame does, what the forward queue and the channel map make of the frame
(R8 to R13, R154, R157, R159). -/

namespace Sys2Proof.Machine

/-! ## END inside a frame at the U port (R154) -/

/-- The U port's frame is taken out of reception by its END. -/
def State.frameClosed (s : State) : State :=
  s.setPort .u { s.uPort with invalidRun := 0, frame := none }

@[simp] theorem frameClosed_keeps (s : State) :
    s.frameClosed.channels = s.channels ∧ s.frameClosed.handing = s.handing ∧ s.frameClosed.watches = s.watches ∧
    s.frameClosed.slots = s.slots ∧ s.frameClosed.capture = s.capture ∧ s.frameClosed.queue = s.queue ∧
    s.frameClosed.mem = s.mem ∧ s.frameClosed.ctl = s.ctl ∧ s.frameClosed.notices = s.notices ∧
    s.frameClosed.dPort = s.dPort ∧ s.frameClosed.link = s.link ∧ s.frameClosed.ep = s.ep ∧
    s.frameClosed.micros = s.micros ∧ s.frameClosed.free = s.free ∧ s.frameClosed.pending = s.pending := by
  simp [State.frameClosed]

@[simp] theorem frameClosed_uPort (s : State) : s.frameClosed.uPort = { s.uPort with invalidRun := 0, frame := none } := rfl

theorem frameOpen_of_frame {s : State} {f : Frame} (up : s.uPort.receiver = .up) (frame : s.uPort.frame = some ⟨f, false⟩) :
    s.frameOpen .u = true := by
  simp [State.frameOpen, State.port, up, frame]

/-- END hands on what is left of an earlier frame and routes the frame it completes. -/
theorem receiveSymbol_end {s : State} {f : Frame} (up : s.uPort.receiver = .up) (frame : s.uPort.frame = some ⟨f, false⟩) :
    receiveSymbol .u .endFrame s = routeU f (finishHanding s).frameClosed := by
  have settled : settleEarlier .u .endFrame s = finishHanding s := by
    simp [settleEarlier, frameOpen_of_frame up frame]
  have port : (finishHanding s).port .u = s.uPort := by simp [State.port]
  simp [receiveSymbol, State.port, up, settled, upSymbol, upRun, Config.invalidRunLimit, assemble, frameEnd, route,
    State.frameClosed, frame]

theorem exec_end_symbolReceived {s : State} {f : Frame} (up : s.uPort.receiver = .up)
    (frame : s.uPort.frame = some ⟨f, false⟩) :
    exec (.symbolReceived .u .endFrame) s = .next (routeU f (finishHanding s).frameClosed) := by
  rw [← receiveSymbol_end up frame]
  rfl

theorem exec_end_frameCompletedU {s : State} {f : Frame} (up : s.uPort.receiver = .up)
    (frame : s.uPort.frame = some ⟨f, false⟩) :
    exec .frameCompletedU s = .next (finishHanding (routeU f (finishHanding s).frameClosed)) := by
  rw [← receiveSymbol_end up frame]
  simp [exec, execFrameCompletedU, frameOpen_of_frame up frame]

/-! ## The forward queue (R159) -/

theorem forwardU2D_of_room {s : State} (f : Frame) (room : s.link.u2d.length < 8) :
    (forwardU2D f s).link.u2d = s.link.u2d ++ [f] ∧ (forwardU2D f s).notices = s.notices := by
  simp [forwardU2D, Config.forwardCapacity, room]

theorem forwardU2D_of_full {s : State} (f : Frame) (full : 8 ≤ s.link.u2d.length) :
    forwardU2D f s = raise classState srcDropU2D s := by
  simp [forwardU2D, Config.forwardCapacity, Nat.not_lt.mpr full]

@[simp] theorem forwardU2D_upstream (f : Frame) (s : State) :
    (forwardU2D f s).link.d2u = s.link.d2u ∧ (forwardU2D f s).link.uSending = s.link.uSending := by
  unfold forwardU2D
  split <;> simp

/-! ## The lookup (R9) -/

theorem lookup_congr {s t : State} (h : t.channels = s.channels) (source : BitVec 12) : t.lookup source = s.lookup source := by
  simp only [State.lookup, channel_congr h]

/-- The one valid entry with a source ID is the entry its frames find. -/
theorem lookup_of_unique {s : State} {source : BitVec 12} {e : Fin 64} (valid : (s.channel e).valid = true)
    (source_eq : (s.channel e).sourceId = source)
    (unique : ∀ e', e' ≠ e → (s.channel e').valid = true → (s.channel e').sourceId ≠ source) :
    s.lookup source = some e := by
  cases found : s.lookup source with
  | none =>
    have := List.find?_eq_none.mp found e (List.mem_finRange e)
    simp [valid, source_eq] at this
  | some e' =>
    obtain ⟨valid', source_eq'⟩ := lookup_some found
    by_contra other
    exact unique e' (fun k => other (congrArg some k)) valid' source_eq'

/-- A frame with no entry of its own is forwarded and nothing more (R9, R157). -/
theorem routeU_of_noEntry {s : State} {f : Frame} (none : offeredToMap f = true → s.lookup (sampleSource f) = none) :
    routeU f s = forwardU2D f s := by
  have looked := lookup_congr (t := forwardU2D f s) (s := s) (by simp) (sampleSource f)
  unfold routeU
  dsimp only
  split
  · rename_i offered
    simp [offerToMap, looked, none offered]
  · rfl

/-- A good SAMPLE frame is forwarded and taken by the entry its source finds (R9, R157). -/
theorem routeU_of_entry {s : State} {f : Frame} {e : Fin 64} (offered : offeredToMap f = true)
    (found : s.lookup (sampleSource f) = some e) : routeU f s = takeFrame e f (forwardU2D f s) := by
  have looked := lookup_congr (t := forwardU2D f s) (s := s) (by simp) (sampleSource f)
  simp [routeU, offered, offerToMap, looked, found]

/-! ## Sample times (R13) -/

theorem timedSamples_getElem? (interval : BitVec 16) (f : Frame) {i : Nat} (h : i < sampleCount f) :
    (timedSamples interval f)[i]? =
      some (word16At f (8 + 2 * i), sampleTimestamp f + BitVec.ofNat 32 (i * interval.toNat)) := by
  simp [timedSamples, frameSamples, sampleTime, h]

/-! ## Gaps (R10 to R12) -/

theorem gap_iff (x : MapEntry) (sequence : BitVec 8) :
    x.gap sequence = true ↔ x.sync = .synced ∧ sequence ≠ x.expected := by
  simp [MapEntry.gap]

theorem setRecord_slots_congr {s t : State} (h : t.slots = s.slots) (i : Fin 8) (k : Half) (r : CaptureRecord) :
    (t.setRecord i k r).slots = (s.setRecord i k r).slots := by
  simp [State.setRecord, State.setSlot, State.slot, h]

theorem countGap_of_active {s : State} {i : Fin 8} {h : Half} (active : (s.slot i).live.active = some h) :
    countGap i s = s.setRecord i h { s.record i h with gaps := satSucc 255 (s.record i h).gaps } := by
  simp [countGap, active]

theorem countGap_of_inactive {s : State} {i : Fin 8} (inactive : (s.slot i).live.active = none) : countGap i s = s := by
  simp [countGap, inactive]

theorem takeGap_watches (e : Fin 64) (bound : Option (Fin 8)) (s : State) :
    (takeGap e bound s).watches = (restartWatches e s).watches := by
  unfold takeGap
  split
  · simp
  · rfl

/-- The ACTIVE half of the bound slot counts the gap. -/
theorem takeGap_slots_of_active {e : Fin 64} {i : Fin 8} {h : Half} {s : State} (active : (s.slot i).live.active = some h) :
    (takeGap e (some i) s).slots = (s.setRecord i h { s.record i h with gaps := min ((s.record i h).gaps + 1) 255 }).slots := by
  have same : (restartWatches e s).record i h = s.record i h := record_congr (by simp) i h
  rw [takeGap, countGap_of_active (by simpa using active), same]
  exact setRecord_slots_congr (by simp) i h _

/-- With no ACTIVE half bound, no slot counts it. -/
theorem takeGap_slots_of_inactive {e : Fin 64} {bound : Option (Fin 8)} {s : State}
    (inactive : ∀ i, bound = some i → (s.slot i).live.active = none) : (takeGap e bound s).slots = s.slots := by
  unfold takeGap
  split
  · rw [countGap_of_inactive (by simpa using inactive _ rfl)]
    simp
  · simp

/-- The state in which the entry has taken the frame and nothing else has happened (R10). -/
def State.entryTook (s : State) (e : Fin 64) (f : Frame) : State :=
  s.setChannel e ((s.channel e).took (sampleSequence f) (sampleTimestamp f))

theorem takeFrame_of_gap {s : State} {e : Fin 64} {f : Frame} (gap : (s.channel e).gap (sampleSequence f) = true) :
    (takeFrame e f s).watches = (restartWatches e (s.entryTook e f)).watches ∧
      (takeFrame e f s).slots = (takeGap e (s.channel e).bound (s.entryTook e f)).slots := by
  rw [← takeGap_watches e (s.channel e).bound]
  simp [takeFrame, gap, State.entryTook]

theorem takeFrame_of_noGap {s : State} {e : Fin 64} {f : Frame} (gap : (s.channel e).gap (sampleSequence f) = false) :
    (takeFrame e f s).watches = s.watches ∧ (takeFrame e f s).slots = s.slots := by
  simp [takeFrame, gap]

end Sys2Proof.Machine
end

section
/-! SUPPORT. FrameCompletedAtUIsForwarded: a frame completed at the U port that no entry takes (R8, R9, R157, R159). -/

namespace Sys2Proof.Machine

/-! ## The frame forwarded -/

theorem lookup_frameClosed (s : State) (source : BitVec 12) : s.frameClosed.lookup source = s.lookup source :=
  lookup_congr (by simp) source

/-- With no earlier frame on its way, END closes the frame and routes it. -/
theorem exec_end_of_idle {s : State} {f : Frame} (up : s.uPort.receiver = .up) (frame : s.uPort.frame = some ⟨f, false⟩)
    (idle : s.handing = none) :
    exec (.symbolReceived .u .endFrame) s = .next (routeU f s.frameClosed) ∧
      exec .frameCompletedU s = .next (finishHanding (routeU f s.frameClosed)) := by
  rw [exec_end_symbolReceived up frame, exec_end_frameCompletedU up frame, finishHanding_of_none idle]
  exact ⟨rfl, rfl⟩

end Sys2Proof.Machine

open Sys2Proof Sys2Proof.Machine

/-- Settles O25: END closes the frame, and with no entry found the forward queue alone sees it. -/
theorem frameCompletedAtUIsForwarded : Obligations.FrameCompletedAtUIsForwarded := by
  intro s f up frame idle noEntry c hc
  have routed : routeU f s.frameClosed = forwardU2D f s.frameClosed :=
    routeU_of_noEntry fun offered => by rw [lookup_frameClosed, noEntry offered]
  have quiet : (forwardU2D f s.frameClosed).handing = none := by simp [idle]
  obtain ⟨bySymbol, byFrame⟩ := exec_end_of_idle up frame idle
  have runs : exec c s = .next (forwardU2D f s.frameClosed) := by
    simp only [List.mem_cons, List.not_mem_nil, or_false] at hc
    rcases hc with rfl | rfl
    · rw [byFrame, routed, finishHanding_of_none quiet]
    · rw [bySymbol, routed]
  refine ⟨_, runs, by simp, fun room => ?_, fun full => ?_⟩
  · obtain ⟨appended, unraised⟩ := forwardU2D_of_room (s := s.frameClosed) f (by simpa using room)
    refine ⟨by simpa using appended, by simpa using unraised, by simp, by simp, ?_⟩
    apply State.ext_fields <;> simp [unraised]
  · rw [forwardU2D_of_full f (by simpa using full)]
    have same : { s with uPort := (raise classState srcDropU2D s.frameClosed).uPort } = s.frameClosed := by
      apply State.ext_fields <;> simp
    rw [same]
    exact raise_only classState srcDropU2D s.frameClosed (by decide)
end

section
/-! SUPPORT. A good SAMPLE frame completed at the U port: the state in which its entry has taken it, and its samples' turns
(R8 to R14, R37, R157). -/

namespace Sys2Proof.Machine

/-- The U port is UP and holds a good SAMPLE frame of entry e, with no earlier frame on its way: its END will have e take it. -/
structure State.holdsFrameOf (s : State) (f : Frame) (e : Fin 64) : Prop where
  up : s.uPort.receiver = .up
  frame : s.uPort.frame = some ⟨f, false⟩
  idle : s.handing = none
  offered : offeredToMap f = true
  found : s.lookup (sampleSource f) = some e

/-- R8's checks passed and one valid entry with the frame's source ID. -/
theorem holdsFrameOf_of_checks {s : State} {f : Frame} {e : Fin 64} (up : s.uPort.receiver = .up)
    (frame : s.uPort.frame = some ⟨f, false⟩) (idle : s.handing = none)
    (checks : goodCrc f = true ∧ frameKind f = 1 ∧ f.length ≤ 78 ∧ 1 ≤ sampleCount f ∧ sampleCount f ≤ 32 ∧
      f.length = 10 + 2 * sampleCount f)
    (valid : (s.channel e).valid = true) (source : (s.channel e).sourceId = sampleSource f)
    (unique : ∀ e', e' ≠ e → (s.channel e').valid = true → (s.channel e').sourceId ≠ sampleSource f) : s.holdsFrameOf f e :=
  ⟨up, frame, idle, (offeredToMap_iff f).mpr checks, lookup_of_unique valid source unique⟩

/-- The state after its END: the frame forwarded and taken, its samples still to be handed on. -/
def State.afterTaking (s : State) (f : Frame) (e : Fin 64) : State :=
  takeFrame e f (forwardU2D f s.frameClosed)

theorem exec_end_of_sample {s : State} {f : Frame} {e : Fin 64} (h : s.holdsFrameOf f e) :
    exec (.symbolReceived .u .endFrame) s = .next (s.afterTaking f e) ∧
      exec .frameCompletedU s = .next (finishHanding (s.afterTaking f e)) := by
  have routed : routeU f s.frameClosed = s.afterTaking f e :=
    routeU_of_entry h.offered ((lookup_frameClosed s _).trans h.found)
  rw [← routed]
  exact exec_end_of_idle h.up h.frame h.idle

/-! ## What the taking leaves -/

@[simp] theorem afterTaking_keeps (s : State) (f : Frame) (e : Fin 64) :
    (s.afterTaking f e).capture = s.capture ∧ (s.afterTaking f e).queue = s.queue ∧ (s.afterTaking f e).mem = s.mem ∧
    (s.afterTaking f e).ctl = s.ctl ∧ (s.afterTaking f e).dPort = s.dPort ∧ (s.afterTaking f e).ep = s.ep ∧
    (s.afterTaking f e).micros = s.micros ∧ (s.afterTaking f e).free = s.free ∧ (s.afterTaking f e).pending = s.pending ∧
    (s.afterTaking f e).uPort = { s.uPort with invalidRun := 0, frame := none } := by
  simp [State.afterTaking]

/-- Link and notice unit stand as forwarding left them. -/
theorem afterTaking_forwarded (s : State) (f : Frame) (e : Fin 64) :
    (s.afterTaking f e).link = (forwardU2D f s.frameClosed).link ∧
      (s.afterTaking f e).notices = (forwardU2D f s.frameClosed).notices := by
  simp [State.afterTaking]

@[simp] theorem afterTaking_upstream (s : State) (f : Frame) (e : Fin 64) :
    (s.afterTaking f e).link.d2u = s.link.d2u ∧ (s.afterTaking f e).link.uSending = s.link.uSending := by
  simp [State.afterTaking]

theorem afterTaking_of_room {s : State} (f : Frame) (e : Fin 64) (room : s.link.u2d.length < 8) :
    (s.afterTaking f e).link.u2d = s.link.u2d ++ [f] ∧ (s.afterTaking f e).notices = s.notices := by
  obtain ⟨link, notices⟩ := afterTaking_forwarded s f e
  rw [link, notices]
  simpa using forwardU2D_of_room (s := s.frameClosed) f (by simpa using room)

/-- A full forward queue drops the frame, with STATE source 5 raised and no other source (R157, R159). -/
theorem afterTaking_of_full {s : State} (f : Frame) (e : Fin 64) (full : 8 ≤ s.link.u2d.length) :
    RaisedOnly classState 5
      { s with
        channels := (s.afterTaking f e).channels, handing := (s.afterTaking f e).handing,
        watches := (s.afterTaking f e).watches, slots := (s.afterTaking f e).slots, uPort := (s.afterTaking f e).uPort }
      (s.afterTaking f e) := by
  obtain ⟨link, notices⟩ := afterTaking_forwarded s f e
  have raised := raise_only classState srcDropU2D s.frameClosed (by decide)
  rw [← forwardU2D_of_full f (by simpa using full)] at raised
  obtain ⟨pending, enable, frame, sending, -⟩ := raised
  simp only [frameClosed_keeps] at pending enable frame sending
  refine ⟨by rw [notices, pending]; rfl, by rw [notices, enable], by rw [link, frame], fun k => by rw [link, sending k], ?_⟩
  apply State.ext_fields <;> simp

theorem channel_forwarded (s : State) (f : Frame) (e : Fin 64) : (forwardU2D f s.frameClosed).channel e = s.channel e :=
  channel_congr (by simp) e

@[simp] theorem channel_afterTaking (s : State) (f : Frame) (e : Fin 64) :
    (s.afterTaking f e).channel e =
      { s.channel e with sync := .synced, expected := sampleSequence f + 1, lastTimestamp := sampleTimestamp f } := by
  rw [State.afterTaking, channel_takeFrame, channel_forwarded]
  rfl

theorem channel_afterTaking_ne {e e' : Fin 64} (s : State) (f : Frame) (n : e' ≠ e) :
    (s.afterTaking f e).channel e' = s.channel e' := by
  rw [State.afterTaking, channel_takeFrame_ne f _ n, channel_forwarded]

theorem afterTaking_handing (s : State) (f : Frame) (e : Fin 64) :
    (s.afterTaking f e).handing = some ⟨e, (s.channel e).bound, 0, timedSamples (s.channel e).interval f⟩ := by
  rw [State.afterTaking, takeFrame_handing, channel_forwarded]

theorem afterTaking_configs (s : State) (f : Frame) (e : Fin 64) :
    (∀ w, ((s.afterTaking f e).watch w).config = (s.watch w).config) ∧
      ∀ i, ((s.afterTaking f e).slot i).config = (s.slot i).config := by
  have rest := keepsAtRest_takeFrame e f (forwardU2D f s.frameClosed)
  refine ⟨fun w => (rest.watchConfig w).trans ?_, fun i => (rest.slotConfig i).trans ?_⟩
  · rw [watch_congr (s := s) (by simp)]
  · rw [slot_congr (s := s) (by simp)]

/-- What has become of the map, the configurations and the forward queues, the same before and after the samples are handed on. -/
structure TakenBy (s : State) (f : Frame) (e : Fin 64) (t : State) : Prop where
  entry : t.channel e =
    { s.channel e with sync := .synced, expected := sampleSequence f + 1, lastTimestamp := sampleTimestamp f }
  others : ∀ e', e' ≠ e → t.channel e' = s.channel e'
  watches : ∀ w, (t.watch w).config = (s.watch w).config
  slots : ∀ i, (t.slot i).config = (s.slot i).config
  mem : t.mem = s.mem
  ep : t.ep = s.ep
  dPort : t.dPort = s.dPort
  upstream : t.link.d2u = s.link.d2u
  forwarded : s.link.u2d.length < 8 → t.link.u2d = s.link.u2d ++ [f]

theorem takenBy_afterTaking (s : State) (f : Frame) (e : Fin 64) : TakenBy s f e (s.afterTaking f e) where
  entry := channel_afterTaking s f e
  others _ n := channel_afterTaking_ne s f n
  watches := (afterTaking_configs s f e).1
  slots := (afterTaking_configs s f e).2
  mem := by simp
  ep := by simp
  dPort := by simp
  upstream := by simp
  forwarded room := (afterTaking_of_room f e room).1

/-- Handing the samples on touches neither map, nor configurations, nor forward queues. -/
theorem TakenBy.afterHanding {s t : State} {f : Frame} {e : Fin 64} (h : TakenBy s f e t) :
    TakenBy s f e (finishHanding t) := by
  have rest := keepsAtRest_finishHanding t
  have channels : ∀ e', (finishHanding t).channel e' = t.channel e' := channel_congr (by simp)
  exact
    { entry := by rw [channels, h.entry]
      others := fun e' n => by rw [channels, h.others e' n]
      watches := fun w => (rest.watchConfig w).trans (h.watches w)
      slots := fun i => (rest.slotConfig i).trans (h.slots i)
      mem := by simpa using h.mem
      ep := by simpa using h.ep
      dPort := by simpa using h.dPort
      upstream := rest.d2u.trans h.upstream
      forwarded := fun room => rest.u2d.trans (h.forwarded room) }

/-! ## The gap (R10 to R12) -/

/-- Before a gap's consequences, watches and slots are as the END found them. -/
@[simp] theorem entryTook_tables (s : State) (f : Frame) (e : Fin 64) :
    ((forwardU2D f s.frameClosed).entryTook e f).watches = s.watches ∧
      ((forwardU2D f s.frameClosed).entryTook e f).slots = s.slots := by
  simp [State.entryTook]

theorem watch_afterTaking_of_gap {s : State} {f : Frame} {e : Fin 64} (gap : (s.channel e).gap (sampleSequence f) = true)
    (w : Fin 32) :
    (s.afterTaking f e).watch w =
      if (s.watch w).config.channel = e ∧ (s.watch w).state ≠ .off then (s.watch w).started else s.watch w := by
  obtain ⟨watches, -⟩ := takeFrame_of_gap (s := forwardU2D f s.frameClosed) (e := e) (by rwa [channel_forwarded])
  have before : ((forwardU2D f s.frameClosed).entryTook e f).watch w = s.watch w := watch_congr (by simp) w
  rw [State.afterTaking, watch_congr watches, watch_restartWatches, before]

theorem slots_afterTaking_of_gap {s : State} {f : Frame} {e : Fin 64} (gap : (s.channel e).gap (sampleSequence f) = true) :
    (s.afterTaking f e).slots = (takeGap e (s.channel e).bound ((forwardU2D f s.frameClosed).entryTook e f)).slots := by
  obtain ⟨-, slots⟩ := takeFrame_of_gap (s := forwardU2D f s.frameClosed) (e := e) (by rwa [channel_forwarded])
  rw [State.afterTaking, slots, channel_forwarded]

/-- The bound slot's ACTIVE half counts one gap (R12). -/
theorem slots_afterTaking_of_active {s : State} {f : Frame} {e : Fin 64} {i : Fin 8} {h : Half}
    (gap : (s.channel e).gap (sampleSequence f) = true) (bound : (s.channel e).bound = some i)
    (active : (s.slot i).live.active = some h) :
    (s.afterTaking f e).slots = (s.setRecord i h { s.record i h with gaps := min ((s.record i h).gaps + 1) 255 }).slots := by
  have slot : ((forwardU2D f s.frameClosed).entryTook e f).slot i = s.slot i := slot_congr (by simp) i
  have record : ((forwardU2D f s.frameClosed).entryTook e f).record i h = s.record i h := record_congr (by simp) i h
  rw [slots_afterTaking_of_gap gap, bound, takeGap_slots_of_active (by rwa [slot]), record]
  exact setRecord_slots_congr (by simp) i h _

theorem slots_afterTaking_of_inactive {s : State} {f : Frame} {e : Fin 64}
    (gap : (s.channel e).gap (sampleSequence f) = true)
    (inactive : ∀ i, (s.channel e).bound = some i → (s.slot i).live.active = none) : (s.afterTaking f e).slots = s.slots := by
  rw [slots_afterTaking_of_gap gap, takeGap_slots_of_inactive fun i bound => ?_]
  · simp
  · rw [slot_congr (s := s) (by simp)]
    exact inactive i bound

theorem afterTaking_of_noGap {s : State} {f : Frame} {e : Fin 64} (gap : (s.channel e).gap (sampleSequence f) = false) :
    (s.afterTaking f e).watches = s.watches ∧ (s.afterTaking f e).slots = s.slots := by
  obtain ⟨watches, slots⟩ := takeFrame_of_noGap (s := forwardU2D f s.frameClosed) (e := e) (by rwa [channel_forwarded])
  exact ⟨watches.trans (by simp), slots.trans (by simp)⟩

/-! ## Turns (R14) -/

/-- FRAME_COMPLETED_U with no frame open is a turn. -/
theorem exec_frameCompletedU_turn {s : State}
    (closed : s.uPort.receiver ≠ .up ∨ s.uPort.frame = none ∨ ∃ octets, s.uPort.frame = some ⟨octets, true⟩) :
    exec .frameCompletedU s = .next (takeTurn s) := by
  have notOpen : s.frameOpen .u = false := by
    unfold State.frameOpen State.port
    dsimp only
    split
    · rename_i up frame
      rcases closed with down | none | ⟨octets, oversize⟩
      · exact absurd up down
      · simp [none] at frame
      · rw [oversize] at frame
        cases frame
        rfl
    · rfl
  simp [exec, execFrameCompletedU, notOpen]

theorem takeTurn_of_watch {s : State} {x : Handing} {v : Sample} {time : Tick} {later : List (Sample × Tick)}
    (h : s.handing = some x) (r : x.rest = (v, time) :: later) {w : Fin 32} (turn : x.turn = w.val) :
    takeTurn s =
      if (s.watch w).config.channel = x.entry then
        watchSample w v time { s with handing := some { x with turn := w.val + 1 } }
      else { s with handing := some { x with turn := w.val + 1 } } := by
  rw [takeTurn_watch h r (turn ▸ w.isLt)]
  simp only [turn]
  rfl

theorem next_of_slot {x : Handing} {y : Sample × Tick} {later : List (Sample × Tick)} (r : x.rest = y :: later)
    (turn : x.turn = 32) : x.next = if later = [] then none else some { x with turn := 0, rest := later } := by
  cases later <;> simp [Handing.next, turn, r]

theorem takeTurn_of_slot {s : State} {x : Handing} {v : Sample} {time : Tick} {later : List (Sample × Tick)}
    (h : s.handing = some x) (r : x.rest = (v, time) :: later) (turn : x.turn = 32) :
    takeTurn s = handToSlot x.bound v time
      { s with handing := if later = [] then none else some { x with turn := 0, rest := later } } := by
  rw [takeTurn_slot h r (by omega), next_of_slot r turn]

theorem watchSample_fires {s : State} {w : Fin 32} {v : Sample} {time : Tick} {y : Watch}
    (h : (s.watch w).onSample v time = (y, true)) : watchSample w v time s = fireWatch w time (s.setWatch w y) := by
  simp [watchSample, h]

theorem watchSample_quiet {s : State} {w : Fin 32} {v : Sample} {time : Tick} {y : Watch}
    (h : (s.watch w).onSample v time = (y, false)) : watchSample w v time s = s.setWatch w y := by
  simp [watchSample, h]

/-- END hands on the rest of an earlier frame first, so it leads to the same state with that frame finished before. -/
theorem exec_end_finishes {s : State} {f : Frame} (up : s.uPort.receiver = .up) (frame : s.uPort.frame = some ⟨f, false⟩)
    {c : Instr} (hc : c ∈ [Instr.frameCompletedU, .symbolReceived .u .endFrame]) : exec c s = exec c (finishHanding s) := by
  have up' : (finishHanding s).uPort.receiver = .up := by simpa using up
  have frame' : (finishHanding s).uPort.frame = some ⟨f, false⟩ := by simpa using frame
  have once : finishHanding (finishHanding s) = finishHanding s := finishHanding_of_none (by simp)
  simp only [List.mem_cons, List.not_mem_nil, or_false] at hc
  rcases hc with rfl | rfl
  · rw [exec_end_frameCompletedU up frame, exec_end_frameCompletedU up' frame', once]
  · rw [exec_end_symbolReceived up frame, exec_end_symbolReceived up' frame', once]

end Sys2Proof.Machine

open Sys2Proof Sys2Proof.Machine

/-- Settles O26: the taking clause by clause of afterTaking, then the turns, then the frame that comes next. -/
theorem sampleFrameIsTakenByItsEntry : Obligations.SampleFrameIsTakenByItsEntry := by
  refine ⟨?_, fun s closed => exec_frameCompletedU_turn closed, ?_, ?_, ?_, fun s f up frame c hc => exec_end_finishes up frame hc⟩
  · intro s f e up frame idle crc kind size atLeast atMost length valid source unique
    obtain ⟨bySymbol, byFrame⟩ := exec_end_of_sample
      (holdsFrameOf_of_checks up frame idle ⟨crc, kind, size, atLeast, atMost, length⟩ valid source unique)
    refine ⟨s.afterTaking f e, timedSamples (s.channel e).interval f, bySymbol, byFrame, afterTaking_handing s f e,
      timedSamples_length _ f, fun i h => timedSamples_getElem? _ f h, by simp, fun room => ?_, afterTaking_of_full f e, ?_, ?_⟩
    · obtain ⟨appended, unraised⟩ := afterTaking_of_room f e room
      exact ⟨appended, unraised, by simp⟩
    · apply State.ext_fields <;> simp
    · intro t ht
      have h : TakenBy s f e t := by
        simp only [List.mem_cons, List.not_mem_nil, or_false] at ht
        rcases ht with rfl | rfl
        · exact takenBy_afterTaking s f e
        · exact (takenBy_afterTaking s f e).afterHanding
      exact ⟨h.entry, h.others, h.watches, h.slots, h.mem, h.ep, h.dPort, h.upstream, h.forwarded⟩
  · intro s x v time later h r
    refine ⟨fun w turn => takeTurn_of_watch h r turn, fun turn => ⟨fun none => ?_, fun i bound => ?_⟩⟩
    · rw [takeTurn_of_slot h r turn, none]
      rfl
    · rw [takeTurn_of_slot h r turn, bound]
      rfl
  · exact fun s w v time => ⟨watchSample_off w v time, fun y => watchSample_fires, fun y => watchSample_quiet⟩
  · exact fun s => ⟨finishHanding_handing s, (finishHanding_takeTurn s).symm, finishHanding_of_none⟩

/-- Settles O27: a gap restarts the entry's watches and is counted by the bound slot's ACTIVE half, before the first sample. -/
theorem gapRestartsWatchesAndIsCounted : Obligations.GapRestartsWatchesAndIsCounted := by
  intro s f e up frame idle crc kind size atLeast atMost length valid source unique
  dsimp only
  rw [← gap_iff]
  obtain ⟨bySymbol, byFrame⟩ := exec_end_of_sample
    (holdsFrameOf_of_checks up frame idle ⟨crc, kind, size, atLeast, atMost, length⟩ valid source unique)
  refine ⟨s.afterTaking f e, bySymbol, byFrame, ?_, ?_, ?_, ?_, ?_, by simp, by simp, by simp,
    fun room => (afterTaking_of_room f e room).2⟩
  · intro gap w channel on
    rw [watch_afterTaking_of_gap gap, if_pos ⟨channel, on⟩]
    unfold Watch.started Watch.entering WatchConfig.startState
    cases (s.watch w).config.kind <;> cases (s.watch w).config.sensitivity <;> rfl
  · intro gap w other
    rw [watch_afterTaking_of_gap gap, if_neg fun both => other.elim (fun n => n both.1) both.2]
  · exact fun gap i h bound active => slots_afterTaking_of_active gap bound active
  · refine fun gap inactive => slots_afterTaking_of_inactive gap fun i bound => ?_
    rcases inactive with none | ⟨j, binds, inactive⟩
    · simp [none] at bound
    · rw [binds] at bound
      cases bound
      exact inactive
  · exact fun gap => afterTaking_of_noGap (by simpa using gap)
end

section
/-! SUPPORT. ChannelMapWriteIsTakenWholeOrRefused: the checks of a WRITE to space 1 as the rules word them, and the map it leaves
(R4 to R7, R15). -/

namespace Sys2Proof.Machine

/-! ## Fields of the configuration words (11.4) -/

theorem wordPasses_iff (word : Option MgmtWord) (test : MgmtWord → Bool) :
    wordPasses word test = true ↔ ∀ v, word = some v → test v = true := by
  cases word <;> simp [wordPasses]

theorem bits_low16 (w : MgmtWord) : bits w 0 16 = w.toNat % 65536 := by
  simp [bits]

theorem bits_boundField (w : MgmtWord) : bits w 16 4 = w.toNat / 65536 % 16 := by
  simp [bits]

/-- A field of one bit is the bit. -/
theorem bits_one (w : MgmtWord) (k : Nat) : decide (bits w k 1 = 1) = w.getLsbD k := by
  have bit := testBit_bits w k 1 0
  have lt := bits_lt w k 1
  have two : bits w k 1 = 0 ∨ bits w k 1 = 1 := by omega
  rcases two with z | o
  · simpa [z] using bit
  · simpa [o] using bit

theorem ofNat_low16 (w : MgmtWord) (n : Nat) (h : n ≤ 16) : BitVec.ofNat n (bits w 0 16) = w.extractLsb' 0 n := by
  have divides : 2 ^ n ∣ 2 ^ 16 := Nat.pow_dvd_pow 2 h
  apply BitVec.eq_of_toNat_eq
  simp only [bits, BitVec.toNat_ofNat, BitVec.extractLsb'_toNat, Nat.pow_zero, Nat.div_one, Nat.shiftRight_zero]
  exact Nat.mod_mod_of_dvd _ divides

/-! ## The checks (R4 to R6) -/

theorem entryInRange_iff (r : Request) (e : Fin 64) :
    entryInRange r e = true ↔
      (∀ v, r.covered (4 * e.val) = some v → v.toNat % 65536 < 4096) ∧
        ∀ v, r.covered (4 * e.val + 1) = some v →
          v.toNat % 65536 ≠ 0 ∧ (v.toNat / 65536 % 16 < 8 ∨ v.toNat / 65536 % 16 = 15) := by
  simp only [entryInRange, Bool.and_eq_true, wordPasses_iff, bits_low16, bits_boundField, Bool.or_eq_true, decide_eq_true_eq]

theorem writesEntry_iff (r : Request) (e : Fin 64) :
    writesEntry r e = true ↔ (r.covered (4 * e.val)).isSome = true ∨ (r.covered (4 * e.val + 1)).isSome = true := by
  simp [writesEntry]

/-! ## The entry a WRITE leaves (R7, R183) -/

theorem carried_eq_elim {α : Type} (word : Option MgmtWord) (take : MgmtWord → α) (present : α) :
    carried word take present = word.elim present take := by
  cases word <;> rfl

/-- The configuration a written entry then has, field by field, with its live fields cleared. -/
theorem withWords_unsync (x : MapEntry) (w0 w1 : Option MgmtWord) :
    (x.withWords w0 w1).unsync =
      { valid := w0.elim x.valid fun v => v.getLsbD 31
        sourceId := w0.elim x.sourceId fun v => v.extractLsb' 0 12
        interval := w1.elim x.interval fun v => v.extractLsb' 0 16
        bound := w1.elim x.bound fun v =>
          if h : v.toNat / 65536 % 16 < 8 then some ⟨v.toNat / 65536 % 16, h⟩ else none
        sync := .unsynced, expected := 0, lastTimestamp := 0 } := by
  have source : ∀ v : MgmtWord, BitVec.ofNat 12 (bits v 0 16) = v.extractLsb' 0 12 := fun v => ofNat_low16 v 12 (by decide)
  have interval : ∀ v : MgmtWord, BitVec.ofNat 16 (bits v 0 16) = v.extractLsb' 0 16 := fun v => ofNat_low16 v 16 (by decide)
  have bound : boundOf =
      fun v => if h : v.toNat / 65536 % 16 < 8 then some ⟨v.toNat / 65536 % 16, h⟩ else none := by
    funext v
    simp only [boundOf, bits_boundField]
  simp only [MapEntry.withWords, MapEntry.unsync, carried_eq_elim, bits_one, source, interval, bound]

/-! ## The four results of a WRITE to space 1 -/

/-- Some entry is out of range. -/
theorem writeMap_of_badValue {r : Request} {s : State} (h : ¬ ∀ e, entryInRange r e = true) :
    writeMap r s = (s, .answer .badValue []) := by
  rw [← all_finRange] at h
  simp [writeMap, h, refusedWith]

theorem writeMap_of_locked {r : Request} {s : State} (inRange : ∀ e, entryInRange r e = true) {e : Fin 64}
    (written : writesEntry r e = true) (locked : s.entryLocked e = true) : writeMap r s = (s, .answer .locked []) := by
  rw [← all_finRange] at inRange
  have some_locked : ((List.finRange 64).any fun e => writesEntry r e && s.entryLocked e) = true :=
    (any_finRange _).mpr ⟨e, by simp [written, locked]⟩
  simp only [writeMap, inRange, some_locked, Bool.not_true, Bool.false_eq_true, if_false, if_true, refusedWith]

/-- In range and with no entry locked, the map as it would stand decides. -/
theorem writeMap_of_unlocked {r : Request} {s : State} (inRange : ∀ e, entryInRange r e = true)
    (unlocked : ∀ e, writesEntry r e = true → s.entryLocked e = false) :
    writeMap r s =
      if duplicated (writtenMap r s) then (s, .answer .duplicate [])
      else ({ s with channels := writtenMap r s, handing := handingLeft r s }, .answer .ok []) := by
  rw [← all_finRange] at inRange
  have none_locked : ((List.finRange 64).any fun e => writesEntry r e && s.entryLocked e) = false := by
    rw [← Bool.not_eq_true, any_finRange]
    rintro ⟨e, h⟩
    obtain ⟨written, locked⟩ := Bool.and_eq_true_iff.mp h
    simp [unlocked e written] at locked
  simp only [writeMap, inRange, none_locked, Bool.not_true, Bool.false_eq_true, if_false, refusedWith, acceptedWith]

/-- A WRITE to space 1 is answered as its owner answers. -/
theorem answersWith_of_writeMap {s u : State} {i : Fin 4} {q : Taken} {status : Status} (h : s.runsWrite 1 i q)
    (owner : writeMap q.request s = (u, .answer status [])) : answersWith .writeChannelMap s u i q status [] := by
  obtain ⟨run, space, -⟩ := runWrite_of_runsWrite h
  obtain ⟨now, form, -⟩ := h
  refine ⟨_, rfl, execute_answers now form ?_⟩
  rw [run, writeOwner, space]
  exact owner

theorem handingLeft_of_written {r : Request} {s : State} {x : Handing} (h : s.handing = some x)
    (written : writesEntry r x.entry = true) : handingLeft r s = none := by
  simp [handingLeft, h, written]

theorem handingLeft_of_unwritten {r : Request} {s : State} {x : Handing} (h : s.handing = some x)
    (unwritten : ¬ writesEntry r x.entry = true) : handingLeft r s = some x := by
  simp [handingLeft, h, unwritten]

end Sys2Proof.Machine

open Sys2Proof Sys2Proof.Machine

/-- Settles O45: the checks in their order, then the map written whole. -/
theorem channelMapWriteIsTakenWholeOrRefused : Obligations.ChannelMapWriteIsTakenWholeOrRefused := by
  intro s i q runs r written inRange locked after duplicates
  have afterIs : ∀ e, after e = (writtenMap r s)[e] := fun e => by
    simp only [after, writtenMap, Fin.getElem_fin, Vector.getElem_ofFn, Fin.eta, writesEntry, withWords_unsync]
  have writtenIff : ∀ e, written e ↔ writesEntry r e = true := fun e => (writesEntry_iff r e).symm
  have inRangeIff : inRange ↔ ∀ e, entryInRange r e = true := forall_congr' fun e => (entryInRange_iff r e).symm
  have lockedIff : locked ↔ ∃ e, writesEntry r e = true ∧ s.entryLocked e = true :=
    exists_congr fun e => and_congr (writtenIff e) (entryLocked_iff s e).symm
  have duplicatesIff : duplicates ↔ duplicated (writtenMap r s) = true := by
    simp only [duplicates, afterIs, duplicated_iff, clash_iff]
  simp only [writtenIff, inRangeIff, lockedIff, duplicatesIff, afterIs]
  refine ⟨fun out => ?_, fun ok lock => ?_, fun ok free dup => ?_, fun ok free unique => ?_⟩
  · exact answersWith_of_writeMap runs (writeMap_of_badValue out)
  · obtain ⟨e, written, lock⟩ := lock
    exact answersWith_of_writeMap runs (writeMap_of_locked ok written lock)
  all_goals
    have unlocked : ∀ e, writesEntry r e = true → s.entryLocked e = false := fun e written => by
      simpa using fun lock => free ⟨e, written, lock⟩
  · refine answersWith_of_writeMap runs ?_
    rw [writeMap_of_unlocked ok unlocked, if_pos dup]
  · refine ⟨{ s with channels := writtenMap r s, handing := handingLeft r s }, answersWith_of_writeMap runs ?_, fun e => rfl,
      fun none => by simp [handingLeft, none], fun x h => ⟨handingLeft_of_written h, handingLeft_of_unwritten h⟩, rfl⟩
    rw [writeMap_of_unlocked ok unlocked, if_neg unique]
end

section
/-! SUPPORT. ResetCaptureClearsTheCaptureSide: the notice unit, the memory controller and the tables after RESET-CAPTURE (R2, R18, R77,
R98, R103, R146). -/

namespace Sys2Proof.Machine

/-! ## The class a notice is built for (R131, R136) -/

/-- A notice is built for an eligible class alone. -/
theorem eligible_of_buildChoice {u : NoticeUnit} {node : BitVec 6} {c : Fin 8} (h : u.buildChoice node = some c) :
    u.eligible c = true := by
  unfold NoticeUnit.buildChoice at h
  split at h
  · exact absurd h (by simp)
  · split at h
    · rename_i d chosen
      cases h
      unfold NoticeUnit.expressChoice at chosen
      split at chosen
      · split at chosen
        · cases chosen
          assumption
        · exact absurd chosen (by simp)
      · exact absurd chosen (by simp)
    · unfold NoticeUnit.ordinaryChoice at h
      split at h
      · exact absurd h (by simp)
      · exact List.find?_some h

theorem getLsbD_setAnnounced_ne (flags : BitVec 8) {c d : Fin 8} (n : d ≠ c) :
    (setAnnounced flags c true).getLsbD d.val = flags.getLsbD d.val := by
  have apart : ((1 : BitVec 8) <<< c.val).getLsbD d.val = false := by
    revert n
    revert c d
    decide
  simp only [setAnnounced, if_true, BitVec.getLsbD_or, apart, Bool.or_false]

/-- A build announces no class that is not eligible. -/
theorem built_announcedFlag {u : NoticeUnit} (node : BitVec 6) (t : Micros) {c : Fin 8} (h : u.eligible c = false) :
    (u.built node t).announcedFlag c = u.announcedFlag c := by
  unfold NoticeUnit.built
  split
  · rfl
  · rename_i d chosen
    have n : c ≠ d := fun e => by simp [e, eligible_of_buildChoice chosen] at h
    exact getLsbD_setAnnounced_ne u.announced n

/-- The notice slot after a build: as it was, or filled with a frame of an eligible class. -/
theorem built_noticeSlot {u : NoticeUnit} {node : BitVec 6} {t : Micros} {n : Notice}
    (h : (u.built node t).noticeSlot = some n) : u.noticeSlot = some n ∨ u.eligible n.cls = true := by
  unfold NoticeUnit.built at h
  split at h
  · exact .inl h
  · rename_i c chosen
    cases h
    exact .inr (eligible_of_buildChoice chosen)

theorem built_of_full {u : NoticeUnit} (node : BitVec 6) (t : Micros) (h : u.noticeSlot.isSome = true) : u.built node t = u := by
  simp [NoticeUnit.built, buildChoice_of_full node h]

/-! ## The notice unit (R146) -/

theorem resetCapture_pending (u : NoticeUnit) (sending : Bool) (c : Fin 8) :
    (u.resetCapture sending).pending[c] = if c.val < 6 then 0 else u.pending[c] := by
  simp [NoticeUnit.resetCapture, captureClass]

theorem resetCapture_eligible {u : NoticeUnit} {sending : Bool} {c : Fin 8} (h : c.val < 6) :
    (u.resetCapture sending).eligible c = false := by
  have nothing : (u.resetCapture sending).pending[c] = 0 := by rw [resetCapture_pending, if_pos h]
  rw [NoticeUnit.eligible, NoticeUnit.eligibleSources, nothing]
  simp

theorem resetCapture_announcedFlag {u : NoticeUnit} {sending : Bool} {c : Fin 8} (h : c.val < 6) :
    (u.resetCapture sending).announcedFlag c = false := by
  have clear : ∀ c : Fin 8, c.val < 6 → (0xC0 : BitVec 8).getLsbD c.val = false := by decide
  simp only [NoticeUnit.announcedFlag, NoticeUnit.resetCapture, BitVec.getLsbD_and, clear c h, Bool.and_false]

/-- A frame that stays in the notice slot is of another class, or has begun to be sent. -/
theorem resetCapture_noticeSlot {u : NoticeUnit} {sending : Bool} {n : Notice}
    (h : (u.resetCapture sending).noticeSlot = some n) : 6 ≤ n.cls.val ∨ sending = true := by
  unfold NoticeUnit.resetCapture at h
  dsimp only at h
  split at h
  · split at h
    · exact absurd h (by simp)
    · rename_i stays
      cases h
      by_cases low : n.cls.val < 6
      · exact .inr (by simpa [captureClass, low] using stays)
      · exact .inl (by omega)
  · exact absurd h (by simp)

theorem resetCapture_noticeSlot_of_sending {u : NoticeUnit} {n : Notice} (h : u.noticeSlot = some n) :
    (u.resetCapture true).noticeSlot = some n := by
  simp [NoticeUnit.resetCapture, h]

theorem sendingNotice_iff (s : State) : s.sendingNotice = true ↔ ∃ f, s.link.dSending = some ⟨.notice, f⟩ := by
  unfold State.sendingNotice
  split
  · rename_i x e
    obtain ⟨holder, frame⟩ := x
    simp [e]
  · rename_i e
    simp [e]

/-! ## The part before the build -/

/-- The capture side cleared, and every count word marked when the count table is on (R98). -/
def clearAndMark (s : State) : State :=
  if s.capture.tableOn then markAll (clearCapture s) else clearCapture s

theorem resetCapture_eq (s : State) : resetCapture s = (build (clearAndMark s), .answer .ok []) := rfl

@[simp] theorem clearCapture_keeps (s : State) :
    (clearCapture s).handing = s.handing ∧ (clearCapture s).mem = s.mem ∧ (clearCapture s).ctl = s.ctl ∧
    (clearCapture s).uPort = s.uPort ∧ (clearCapture s).dPort = s.dPort ∧ (clearCapture s).link = s.link ∧
    (clearCapture s).ep = s.ep ∧ (clearCapture s).micros = s.micros ∧ (clearCapture s).free = s.free ∧
    (clearCapture s).pending = s.pending := by
  simp [clearCapture]

@[simp] theorem clearAndMark_keeps (s : State) :
    (clearAndMark s).handing = s.handing ∧ (clearAndMark s).mem = s.mem ∧ (clearAndMark s).uPort = s.uPort ∧
    (clearAndMark s).dPort = s.dPort ∧ (clearAndMark s).link = s.link ∧ (clearAndMark s).ep = s.ep ∧
    (clearAndMark s).micros = s.micros ∧ (clearAndMark s).free = s.free ∧ (clearAndMark s).pending = s.pending := by
  unfold clearAndMark
  split <;> simp

/-- The marks change the controller alone; the tables are those of clearCapture. -/
theorem clearAndMark_tables (s : State) :
    (clearAndMark s).channels = (clearCapture s).channels ∧ (clearAndMark s).watches = (clearCapture s).watches ∧
    (clearAndMark s).slots = (clearCapture s).slots ∧ (clearAndMark s).capture = (clearCapture s).capture ∧
    (clearAndMark s).notices = (clearCapture s).notices := by
  unfold clearAndMark
  split <;> simp

/-- An empty write queue gives the arbiter no burst to begin. -/
theorem chooseMem_queue_of_empty {s : State} (h : s.queue = []) : (chooseMem s).queue = [] := by
  unfold chooseMem beginWork
  (repeat' split) <;> simp_all [beginCountWrite, Config.queueHighWater]

theorem clearAndMark_queue (s : State) : (clearAndMark s).queue = [] := by
  have empty : (clearCapture s).queue = [] := by simp [clearCapture]
  unfold clearAndMark markAll workArrives
  split
  · split
    · simpa using empty
    · exact chooseMem_queue_of_empty empty
  · exact empty

theorem clearAndMark_ctl_of_off {s : State} (off : s.capture.tableOn = false) : (clearAndMark s).ctl = s.ctl := by
  simp [clearAndMark, off]

/-- With an operation on the port the marks wait. -/
theorem clearAndMark_ctl_of_busy {s : State} (on : s.capture.tableOn = true) (busy : s.ctl.op ≠ none)
    (awake : s.ctl.state ≠ .hold) : (clearAndMark s).ctl = { s.ctl with dirty := Vector.replicate 16 true } := by
  simp only [clearAndMark, on, if_true, markAll]
  rw [workArrives_of_busy (by simpa using busy) (by simpa using awake)]
  simp

/-- In HOLD the marks start the exit (R124). -/
theorem clearAndMark_ctl_of_hold {s : State} (on : s.capture.tableOn = true) (hold : s.ctl.state = .hold) :
    (clearAndMark s).ctl.state = .exiting ∧ (clearAndMark s).ctl.dirty = Vector.replicate 16 true := by
  simp [clearAndMark, on, markAll, workArrives, hold, beginExit]

/-! ## The part after RESET-CAPTURE -/

/-- RESET-CAPTURE is answered OK, with the part as clearAndMark and a build leave it. -/
theorem answersWith_resetCapture {s : State} {i : Fin 4} {q : Taken} (h : s.runsCommand 12 i q) :
    answersWith .resetCapture s (build (clearAndMark s)) i q .ok [] :=
  ⟨_, rfl, execute_answers h.1 (asksFor_of_runsCommand h) (resetCapture_eq s)⟩

theorem notices_after_resetCapture (s : State) :
    (build (clearAndMark s)).notices = (s.notices.resetCapture s.sendingNotice).built s.ep.nodeAddress s.micros := by
  obtain ⟨-, -, -, -, notices⟩ := clearAndMark_tables s
  rw [build_notices, notices]
  simp [clearCapture]

theorem captureClassesCleared (s : State) : CaptureClassesCleared s (build (clearAndMark s)) := by
  unfold CaptureClassesCleared
  rw [notices_after_resetCapture]
  have pending : ∀ c : Fin 8, ((s.notices.resetCapture s.sendingNotice).built s.ep.nodeAddress s.micros).pending[c] =
      if c.val < 6 then 0 else s.notices.pending[c] := fun c => by
    rw [← resetCapture_pending s.notices s.sendingNotice c]
    simp
  refine ⟨fun c low => ⟨?_, ?_⟩, fun c high => ?_⟩
  · rw [pending, if_pos low]
  · rw [built_announcedFlag _ _ (resetCapture_eligible low), resetCapture_announcedFlag low]
  · rw [pending, if_neg (by omega)]

end Sys2Proof.Machine

open Sys2Proof Sys2Proof.Machine

/-- Settles O57: the tables by clearCapture, the controller by the marks, the notice unit by its own reset and one build. -/
theorem resetCaptureClearsTheCaptureSide : Obligations.ResetCaptureClearsTheCaptureSide := by
  intro s i q runs
  obtain ⟨channels, watches, slots, capture, -⟩ := clearAndMark_tables s
  have slot : ∀ j, (build (clearAndMark s)).slot j = (s.slot j).resetCapture := fun j => by
    rw [slot_congr (s := clearCapture s) (by simp [slots]), clearCapture_slot]
  refine ⟨build (clearAndMark s), answersWith_resetCapture runs, fun e => ?_, fun w => ?_, fun j => ?_, ?_, ?_,
    captureClassesCleared s, ?_, fun n h => ?_, fun f n sending h => ?_, fun off => ?_, fun on busy awake => ?_,
    fun on hold => ?_, ?_, ?_⟩
  · rw [channel_congr (s := clearCapture s) (by simp [channels]), clearCapture_channel]
    rfl
  · rw [watch_congr (s := clearCapture s) (by simp [watches]), clearCapture_watch]
    rfl
  · rw [slot]
    refine ⟨rfl, rfl, fun h => ?_⟩
    rw [State.record, slot]
    cases h <;> rfl
  · simp [capture, clearCapture]
  · simp [clearAndMark_queue]
  · simp [notices_after_resetCapture, NoticeUnit.resetCapture]
  · rw [notices_after_resetCapture] at h
    rw [← sendingNotice_iff]
    rcases built_noticeSlot h with stays | eligible
    · exact resetCapture_noticeSlot stays
    · refine .inl (Nat.not_lt.mp fun low => ?_)
      simp [resetCapture_eligible low] at eligible
  · have sends : s.sendingNotice = true := (sendingNotice_iff s).mpr ⟨f, sending⟩
    have stays := resetCapture_noticeSlot_of_sending h
    rw [notices_after_resetCapture, sends, built_of_full _ _ (by simp [stays]), stays]
  · simp [clearAndMark_ctl_of_off off]
  · simp [clearAndMark_ctl_of_busy on busy awake]
  · simpa using clearAndMark_ctl_of_hold on hold
  · have frame := build_linkFrame (clearAndMark s)
    rwa [show (clearAndMark s).link = s.link by simp] at frame
  · apply State.ext_fields <;> simp
end

section
/-! SUPPORT. PowerOnClearsEveryBlock: what every table reads after power-on reset. -/

namespace Sys2Proof.Machine

@[simp] theorem powerOn_channel (straps : BitVec 6) (free : Nat) (pending : List Instr) (e : Fin 64) :
    (State.powerOn straps free pending).channel e = MapEntry.reset := by
  simp [State.powerOn, State.channel]

@[simp] theorem powerOn_watch (straps : BitVec 6) (free : Nat) (pending : List Instr) (w : Fin 32) :
    (State.powerOn straps free pending).watch w = Watch.reset := by
  simp [State.powerOn, State.watch]

@[simp] theorem powerOn_slot (straps : BitVec 6) (free : Nat) (pending : List Instr) (i : Fin 8) :
    (State.powerOn straps free pending).slot i = Slot.reset := by
  simp [State.powerOn, State.slot]

@[simp] theorem powerOn_record (straps : BitVec 6) (free : Nat) (pending : List Instr) (i : Fin 8) (h : Half) :
    (State.powerOn straps free pending).record i h = CaptureRecord.cleared .empty := by
  rw [State.record, powerOn_slot]
  cases h <;> rfl

@[simp] theorem powerOn_context (straps : BitVec 6) (free : Nat) (pending : List Instr) (i : Fin 4) :
    (State.powerOn straps free pending).context i = .free := by
  simp [State.powerOn, State.context, Endpoint.reset]

@[simp] theorem powerOn_port (straps : BitVec 6) (free : Nat) (pending : List Instr) (p : Port) :
    (State.powerOn straps free pending).port p = PortState.reset := by
  cases p <;> rfl

theorem powerOn_transmitter (straps : BitVec 6) (free : Nat) (pending : List Instr) (p : Port) :
    (State.powerOn straps free pending).transmitter p = .train false := by
  cases p <;> rfl

end Sys2Proof.Machine

open Sys2Proof Sys2Proof.Machine

/-- Settles O4: the state after power-on reset, block by block. -/
theorem powerOnClearsEveryBlock : Obligations.PowerOnClearsEveryBlock := by
  intro straps s
  refine ⟨State.powerOn straps s.free s.pending, rfl, rfl, fun e => ?_, fun w => ?_, fun i => ?_, rfl, rfl, ?_, fun p => ?_,
    ⟨rfl, rfl⟩, rfl, fun i => powerOn_context _ _ _ i, rfl, rfl, rfl⟩
  · rw [powerOn_channel]
    rfl
  · rw [powerOn_watch]
    exact ⟨rfl, rfl, rfl, rfl, rfl, rfl, rfl, rfl⟩
  · rw [powerOn_slot]
    exact ⟨rfl, rfl, fun h => powerOn_record _ _ _ i h⟩
  · refine ⟨rfl, rfl, rfl, rfl, rfl, rfl, ?_, ?_, rfl, rfl, fun a => rfl⟩
    · simp [State.powerOn, MemCtl.reset]
    · simp [State.powerOn, MemCtl.reset]
  · rw [powerOn_port]
    exact ⟨rfl, rfl, rfl, rfl, rfl, rfl, rfl, rfl, rfl, powerOn_transmitter _ _ _ p⟩
end

section
/-! SUPPORT. What a watch does with one sample, state by state: the sides of R23, the edges of R29 and R40, the moves of the level
and crossing kinds, and the watch table after a fire (R25 to R29, R31). -/

namespace Sys2Proof.Machine

/-! ## Sides and edges (R23, R29, R40) -/

theorem sideOf_iff (isTrue isFalse : Bool) :
    (sideOf isTrue isFalse = .onTrue ↔ isTrue = true) ∧
      (sideOf isTrue isFalse = .onFalse ↔ isTrue = false ∧ isFalse = true) ∧
      (sideOf isTrue isFalse = .hold ↔ isTrue = false ∧ isFalse = false) := by
  cases isTrue <;> cases isFalse <;> decide

theorem edgeOf_iff (isLeading isTrailing : Bool) :
    (edgeOf isLeading isTrailing = .leading ↔ isLeading = true) ∧
      (edgeOf isLeading isTrailing = .trailing ↔ isLeading = false ∧ isTrailing = true) := by
  cases isLeading <;> cases isTrailing <;> decide

theorem WatchConfig.h_nonneg (c : WatchConfig) : 0 ≤ c.h :=
  Int.natCast_nonneg _

theorem side_above {c : WatchConfig} (kind : c.kind = .above) (v : Int) :
    (c.side v = .onTrue ↔ c.a < v) ∧ (c.side v = .onFalse ↔ v < c.a - c.h) ∧
      (c.side v = .hold ↔ c.a - c.h ≤ v ∧ v ≤ c.a) := by
  have band := c.h_nonneg
  simp only [WatchConfig.side, kind, sideOf_iff, decide_eq_true_eq, decide_eq_false_iff_not, true_and]
  exact ⟨by omega, by omega⟩

theorem side_below {c : WatchConfig} (kind : c.kind = .below) (v : Int) :
    (c.side v = .onTrue ↔ v < c.a) ∧ (c.side v = .onFalse ↔ c.a + c.h < v) ∧
      (c.side v = .hold ↔ c.a ≤ v ∧ v ≤ c.a + c.h) := by
  have band := c.h_nonneg
  simp only [WatchConfig.side, kind, sideOf_iff, decide_eq_true_eq, decide_eq_false_iff_not, true_and]
  exact ⟨by omega, by omega⟩

/-- R21 keeps the two bands of BAND-OUT apart, so that its false side lies between them. -/
theorem side_bandOut {c : WatchConfig} (kind : c.kind = .bandOut) (apart : c.b + c.h ≤ c.a - c.h) (v : Int) :
    (c.side v = .onTrue ↔ c.a < v ∨ v < c.b) ∧ (c.side v = .onFalse ↔ c.b + c.h ≤ v ∧ v ≤ c.a - c.h) ∧
      (c.side v = .hold ↔ (c.a - c.h < v ∧ v ≤ c.a) ∨ (c.b ≤ v ∧ v < c.b + c.h)) := by
  have band := c.h_nonneg
  simp only [WatchConfig.side, kind, sideOf_iff, Bool.or_eq_true, Bool.or_eq_false_iff, Bool.and_eq_true, Bool.and_eq_false_iff,
    decide_eq_true_eq, decide_eq_false_iff_not, true_and]
  exact ⟨by omega, by omega⟩

theorem edge_rising {c : WatchConfig} (h : c.rising = true) (v : Int) :
    (c.edge v = .leading ↔ c.a < v) ∧ (c.edge v = .trailing ↔ v < c.a - c.h) := by
  have band := c.h_nonneg
  simp only [WatchConfig.edge, h, if_true, edgeOf_iff, decide_eq_true_eq, decide_eq_false_iff_not, true_and]
  omega

theorem edge_falling {c : WatchConfig} (h : c.rising = false) (v : Int) :
    (c.edge v = .leading ↔ v < c.a) ∧ (c.edge v = .trailing ↔ c.a + c.h < v) := by
  have band := c.h_nonneg
  simp only [WatchConfig.edge, h, Bool.false_eq_true, if_false, edgeOf_iff, decide_eq_true_eq, decide_eq_false_iff_not, true_and]
  omega

/-! ## Which move a kind makes -/

theorem onSample_of_level {x : Watch} (v : Sample) (t : Tick)
    (kind : x.config.kind = .above ∨ x.config.kind = .below ∨ x.config.kind = .bandOut) :
    x.onSample v t = x.levelMove (x.config.side v.toInt) := by
  rcases kind with h | h | h <;> simp only [Watch.onSample, h]

theorem onSample_of_crossing {x : Watch} (v : Sample) (t : Tick) (kind : x.config.kind = .rise ∨ x.config.kind = .fall) :
    x.onSample v t = x.crossingMove (x.config.edge v.toInt) := by
  rcases kind with h | h <;> simp only [Watch.onSample, h]

/-! ## Level moves (R25 to R28) -/

/-- The Q-th true sample in a row fires the watch. -/
theorem qualified_of_reached {x : Watch} {k : Nat} (h : x.config.qualify ≤ k) :
    x.qualified k = ({ x with state := .asserted, progress := 0 }, true) := by
  simp [Watch.qualified, h]

theorem qualified_of_short {x : Watch} {k : Nat} (h : k < x.config.qualify) :
    x.qualified k = ({ x with state := .qualifying, progress := k }, false) := by
  simp [Watch.qualified, Nat.not_le.mpr h]

theorem levelMove_of_unprimed {x : Watch} (side : Side) (h : x.state = .unprimed) :
    x.levelMove side = if side = .onFalse then ({ x with state := .clear }, false) else (x, false) := by
  cases side <;> simp [Watch.levelMove, h]

theorem levelMove_of_clear {x : Watch} (side : Side) (h : x.state = .clear) :
    x.levelMove side = if side = .onTrue then x.qualified 1 else (x, false) := by
  cases side <;> simp [Watch.levelMove, h]

theorem levelMove_of_qualifying {x : Watch} (side : Side) (h : x.state = .qualifying) :
    x.levelMove side =
      if side = .onTrue then x.qualified (x.progress + 1) else ({ x with state := .clear, progress := 0 }, false) := by
  cases side <;> simp [Watch.levelMove, h]

theorem levelMove_of_asserted {x : Watch} (side : Side) (h : x.state = .asserted) :
    x.levelMove side =
      if side = .onFalse then ({ x with state := .clear }, false)
      else (x, decide (side = .onTrue ∧ x.config.sensitivity = .level)) := by
  cases side <;> simp [Watch.levelMove, h]

/-! ## Crossing moves (R29) -/

theorem crossingMove_of_unprimed {x : Watch} (edge : Edge) (h : x.state = .unprimed) :
    x.crossingMove edge = if edge = .trailing then ({ x with state := .clear }, false) else (x, false) := by
  cases edge <;> simp [Watch.crossingMove, h]

theorem crossingMove_of_clear {x : Watch} (edge : Edge) (h : x.state = .clear) :
    x.crossingMove edge = if edge = .leading then ({ x with state := .unprimed }, true) else (x, false) := by
  cases edge <;> simp [Watch.crossingMove, h]

/-! ## A fire (R31) -/

/-- Of the watch table a fire writes the notes of its own watch. -/
theorem fireWatch_watches (w : Fin 32) (t : Tick) (s : State) :
    (fireWatch w t s).watches =
      (s.setWatch w { s.watch w with lastFire := t, lastOutcome := (requestTrigger w t s).2 }).watches := by
  simp [fireWatch, State.setWatch, State.watch]

end Sys2Proof.Machine
end

section
/-! SUPPORT. StepKeepsWatches: what each move of one watch keeps of its constraints and live fields, then the table through every
command (R20 to R22, R24 to R30, R34, R35, R41 to R46). -/

namespace Sys2Proof.Machine

/-! ## One watch -/

/-- The configuration part of the invariant (R20, R21). -/
def WatchConfig.sound (c : WatchConfig) : Prop :=
  c.constrained = true ∧ 1 ≤ c.qualify ∧ c.qualify ≤ 255

theorem Watch.agrees_iff (x : Watch) :
    x.agrees ↔ x.config.sound ∧ (x.state = .qualifying → 1 ≤ x.progress ∧ x.progress < x.config.qualify) ∧
      (x.state ≠ .qualifying → x.progress = 0) ∧ (x.state ≠ .measuring → x.startTime = 0 ∧ x.phase = .away) := by
  simp only [Watch.agrees, WatchConfig.sound, and_assoc]

theorem Watch.agrees.config_sound {x : Watch} (a : x.agrees) : x.config.sound :=
  ((Watch.agrees_iff x).mp a).1

theorem Watch.agrees.progress_zero {x : Watch} (a : x.agrees) (h : x.state ≠ .qualifying) : x.progress = 0 :=
  ((Watch.agrees_iff x).mp a).2.2.1 h

/-- A watch outside QUALIFYING and MEASURING with nothing in progress. -/
theorem agrees_of_nothing {x : Watch} (config : x.config.sound) (state : x.state ≠ .qualifying) (progress : x.progress = 0)
    (start : x.startTime = 0) (phase : x.phase = .away) : x.agrees :=
  (Watch.agrees_iff x).mpr ⟨config, fun h => absurd h state, fun _ => progress, fun _ => ⟨start, phase⟩⟩

theorem agrees_of_measuring {x : Watch} (config : x.config.sound) (state : x.state = .measuring) (progress : x.progress = 0) :
    x.agrees :=
  (Watch.agrees_iff x).mpr ⟨config, fun h => by simp [state] at h, fun _ => progress, fun h => absurd state h⟩

theorem entering_agrees {x : Watch} {state : WatchState} (config : x.config.sound) (h : state ≠ .qualifying) :
    (x.entering state).agrees :=
  agrees_of_nothing config h rfl rfl rfl

theorem startState_ne_qualifying (c : WatchConfig) : c.startState ≠ .qualifying := by
  unfold WatchConfig.startState
  split <;> decide

theorem started_agrees {x : Watch} (a : x.agrees) : x.started.agrees :=
  entering_agrees a.config_sound (startState_ne_qualifying x.config)

theorem stopped_agrees {x : Watch} (a : x.agrees) : x.stopped.agrees :=
  entering_agrees a.config_sound (by decide)

/-- A watch that measures nothing changes state with the progress its new state calls for. -/
theorem withState_agrees {x : Watch} {state : WatchState} {k : Nat} (a : x.agrees) (unmeasured : x.state ≠ .measuring)
    (counts : state = .qualifying → 1 ≤ k ∧ k < x.config.qualify) (rests : state ≠ .qualifying → k = 0) :
    ({ x with state := state, progress := k } : Watch).agrees := by
  obtain ⟨config, -, -, idle⟩ := (Watch.agrees_iff x).mp a
  exact (Watch.agrees_iff _).mpr ⟨config, counts, rests, fun _ => idle unmeasured⟩

/-- Outside QUALIFYING and MEASURING, a change of state alone. -/
theorem withRestState_agrees {x : Watch} {state : WatchState} (a : x.agrees) (from_rest : x.state ≠ .qualifying)
    (unmeasured : x.state ≠ .measuring) (to_rest : state ≠ .qualifying) : ({ x with state := state } : Watch).agrees :=
  withState_agrees (k := x.progress) a unmeasured (fun h => absurd h to_rest) fun _ => a.progress_zero from_rest

theorem qualified_agrees {x : Watch} {k : Nat} (a : x.agrees) (unmeasured : x.state ≠ .measuring) (counted : 1 ≤ k) :
    (x.qualified k).1.agrees := by
  unfold Watch.qualified
  split
  · exact withState_agrees a unmeasured (fun h => by simp at h) fun _ => rfl
  · exact withState_agrees a unmeasured (fun _ => ⟨counted, by omega⟩) fun h => absurd rfl h

theorem levelMove_agrees {x : Watch} (a : x.agrees) (side : Side) : (x.levelMove side).1.agrees := by
  cases state : x.state with
  | off | measuring => simpa [Watch.levelMove, state] using a
  | unprimed =>
    rw [levelMove_of_unprimed side state]
    split
    · exact withRestState_agrees a (by simp [state]) (by simp [state]) (by decide)
    · exact a
  | clear =>
    rw [levelMove_of_clear side state]
    split
    · exact qualified_agrees a (by simp [state]) (Nat.le_refl 1)
    · exact a
  | qualifying =>
    rw [levelMove_of_qualifying side state]
    split
    · exact qualified_agrees a (by simp [state]) (Nat.le_add_left 1 x.progress)
    · exact withState_agrees a (by simp [state]) (fun h => by simp at h) fun _ => rfl
  | asserted =>
    rw [levelMove_of_asserted side state]
    split
    · exact withRestState_agrees a (by simp [state]) (by simp [state]) (by decide)
    · exact a

theorem crossingMove_agrees {x : Watch} (a : x.agrees) (edge : Edge) : (x.crossingMove edge).1.agrees := by
  unfold Watch.crossingMove
  split
  case h_1 state => exact withRestState_agrees a (by simp [state]) (by simp [state]) (by decide)
  case h_4 state => exact withRestState_agrees a (by simp [state]) (by simp [state]) (by decide)
  all_goals exact a

/-- Ending a width needs no more than leaving MEASURING; a period goes on in it. -/
theorem measureMove_agrees {x : Watch} (a : x.agrees) (measures : x.state = .measuring) (edge : Edge) (t : Tick) :
    (x.measureMove edge t).1.agrees := by
  have none_counted : x.progress = 0 := a.progress_zero (by simp [measures])
  unfold Watch.measureMove
  split
  · exact agrees_of_nothing a.config_sound (by simp [Watch.entering]) rfl rfl rfl
  · exact agrees_of_measuring a.config_sound measures none_counted
  · exact agrees_of_measuring a.config_sound measures none_counted
  · exact a

theorem measuringMove_agrees {x : Watch} (a : x.agrees) (edge : Edge) (t : Tick) : (x.measuringMove edge t).1.agrees := by
  unfold Watch.measuringMove
  split
  case h_1 state =>
    split
    · exact withRestState_agrees a (by simp [state]) (by simp [state]) (by decide)
    · exact a
  case h_2 state =>
    split
    · exact agrees_of_measuring a.config_sound rfl (a.progress_zero (by simp [state]))
    · exact a
  case h_3 state =>
    split
    · exact agrees_of_nothing a.config_sound (by simp [Watch.entering]) rfl rfl rfl
    · exact measureMove_agrees a state edge t
  all_goals exact a

/-- A sample keeps a watch's agreement, whatever its kind. -/
theorem onSample_agrees {x : Watch} (a : x.agrees) (v : Sample) (t : Tick) : (x.onSample v t).1.agrees := by
  unfold Watch.onSample
  split
  case h_4 | h_5 => exact crossingMove_agrees a _
  case h_6 | h_7 => exact measuringMove_agrees a _ t
  all_goals exact levelMove_agrees a _

/-- A fire's notes are not part of the agreement. -/
theorem noted_agrees {x : Watch} (a : x.agrees) (t : Tick) (outcome : RequestOutcome) :
    ({ x with lastFire := t, lastOutcome := outcome } : Watch).agrees :=
  a

theorem reset_agrees : Watch.reset.agrees :=
  agrees_of_nothing ⟨by decide, by decide, by decide⟩ (by decide) rfl rfl rfl

/-! ## The table -/

theorem watchesAgree_congr {s t : State} (a : s.watchesAgree) (h : t.watches = s.watches) : t.watchesAgree := fun w => by
  rw [watch_congr h]
  exact a w

theorem setWatch_keeps_watchesAgree {s : State} {w : Fin 32} {x : Watch} (a : s.watchesAgree) (h : x.agrees) :
    (s.setWatch w x).watchesAgree := fun v => by
  by_cases e : v = w
  · subst e
    simpa using h
  · rw [watch_setWatch_ne s x e]
    exact a v

/-! ## Samples and frames -/

theorem fireWatch_keeps_watchesAgree {s : State} (a : s.watchesAgree) (w : Fin 32) (t : Tick) : (fireWatch w t s).watchesAgree :=
  watchesAgree_congr (setWatch_keeps_watchesAgree a (noted_agrees (a w) t _)) (fireWatch_watches w t s)

theorem watchSample_keeps_watchesAgree {s : State} (a : s.watchesAgree) (w : Fin 32) (v : Sample) (t : Tick) :
    (watchSample w v t s).watchesAgree := by
  have moved : (s.setWatch w ((s.watch w).onSample v t).1).watchesAgree :=
    setWatch_keeps_watchesAgree a (onSample_agrees (a w) v t)
  unfold watchSample
  dsimp only
  split
  · exact fireWatch_keeps_watchesAgree moved w t
  · exact moved

theorem takeTurn_keeps_watchesAgree {s : State} (a : s.watchesAgree) : (takeTurn s).watchesAgree := by
  unfold takeTurn
  split
  · exact a
  · split
    · exact a
    · split
      · unfold handToWatch
        split
        · exact watchSample_keeps_watchesAgree (by exact a) _ _ _
        · exact a
      · exact watchesAgree_congr a (by simp)

theorem takeTurns_keeps_watchesAgree {s : State} (n : Nat) (a : s.watchesAgree) : (takeTurns n s).watchesAgree := by
  induction n generalizing s with
  | zero => exact a
  | succ n ih => exact ih (takeTurn_keeps_watchesAgree a)

theorem finishHanding_keeps_watchesAgree {s : State} (a : s.watchesAgree) : (finishHanding s).watchesAgree := by
  unfold finishHanding
  split
  · exact a
  · exact watchesAgree_congr (takeTurns_keeps_watchesAgree _ a) rfl

theorem restartWatches_keeps_watchesAgree {s : State} (a : s.watchesAgree) (e : Fin 64) : (restartWatches e s).watchesAgree :=
  fun w => by
    rw [watch_restartWatches]
    split
    · exact started_agrees (a w)
    · exact a w

theorem takeFrame_keeps_watchesAgree {s : State} (a : s.watchesAgree) (e : Fin 64) (f : Frame) :
    (takeFrame e f s).watchesAgree := by
  cases gap : (s.channel e).gap (sampleSequence f) with
  | true => exact watchesAgree_congr (restartWatches_keeps_watchesAgree (by exact a) e) (takeFrame_of_gap gap).1
  | false => exact watchesAgree_congr a (takeFrame_of_noGap gap).1

theorem routeU_keeps_watchesAgree {s : State} (a : s.watchesAgree) (f : Frame) : (routeU f s).watchesAgree := by
  have forwarded : (forwardU2D f s).watchesAgree := watchesAgree_congr a (by simp)
  unfold routeU offerToMap
  dsimp only
  split
  · split
    · exact takeFrame_keeps_watchesAgree forwarded _ f
    · exact forwarded
  · exact forwarded

theorem frameEnd_keeps_watchesAgree {s : State} (a : s.watchesAgree) (p : Port) (f : RxFrame) : (frameEnd p f s).watchesAgree := by
  have closed : (s.setPort p { s.port p with frame := none }).watchesAgree := watchesAgree_congr a (by simp)
  unfold frameEnd
  dsimp only
  split
  · exact closed
  · cases p with
    | u => exact routeU_keeps_watchesAgree closed f.octets
    | d => exact watchesAgree_congr closed (by simp [route])

theorem assemble_keeps_watchesAgree {s : State} (a : s.watchesAgree) (p : Port) (symbol : Symbol) :
    (assemble p symbol s).watchesAgree := by
  unfold assemble
  split
  case h_4 f _ => exact frameEnd_keeps_watchesAgree a p f
  all_goals exact watchesAgree_congr a (by simp)

theorem upSymbol_keeps_watchesAgree {s : State} (a : s.watchesAgree) (p : Port) (symbol : Symbol) :
    (upSymbol p symbol s).watchesAgree := by
  unfold upSymbol
  dsimp only
  split
  · exact watchesAgree_congr a (by simp)
  · exact assemble_keeps_watchesAgree (watchesAgree_congr a (by simp)) p symbol

/-- A symbol reaches the watches only by the END of a frame. -/
theorem receiveSymbol_keeps_watchesAgree {s : State} (a : s.watchesAgree) (p : Port) (symbol : Symbol) :
    (receiveSymbol p symbol s).watchesAgree := by
  have settled : (settleEarlier p symbol s).watchesAgree := by
    unfold settleEarlier
    split
    · exact finishHanding_keeps_watchesAgree a
    · exact a
  unfold receiveSymbol
  split
  case h_3 => exact upSymbol_keeps_watchesAgree settled p symbol
  all_goals exact watchesAgree_congr a (by simp)

/-! ## WRITE to the watch table (R20 to R22) -/

/-- The table a WRITE leaves, watch by watch. -/
theorem watch_writtenWatches {r : Request} {s t : State} (h : t.watches = writtenWatches r s) (w : Fin 32) :
    t.watch w = if writesWatch r w then { s.watch w with config := writtenWatch r s w } else s.watch w := by
  simp [State.watch, h, writtenWatches]

/-- Values in range give a Q in range (R20). -/
theorem writtenWatch_qualify {r : Request} {s : State} {w : Fin 32} (a : (s.watch w).config.sound)
    (inRange : watchInRange r w = true) : 1 ≤ (writtenWatch r s w).qualify ∧ (writtenWatch r s w).qualify ≤ 255 := by
  simp only [watchInRange, Bool.and_eq_true, wordPasses_iff, decide_eq_true_eq] at inRange
  obtain ⟨⟨-, notZero⟩, -⟩ := inRange
  obtain ⟨-, low, high⟩ := a
  simp only [writtenWatch, WatchConfig.withWords]
  cases carries : r.covered (8 * w.val + 2) with
  | none => exact ⟨low, high⟩
  | some v =>
    have := notZero v carries
    have := bits_lt v 24 8
    simp only [carried]
    omega

/-- The checks of R20 and R21 on every watch that the WRITE covers a word of. -/
def watchesPass (r : Request) (s : State) : Prop :=
  ∀ w, writesWatch r w = true → watchInRange r w = true ∧ (writtenWatch r s w).constrained = true

/-- A written watch was OFF, and stays so with a configuration that passed its checks (R22). -/
theorem watchesAgree_of_writtenWatches {r : Request} {s t : State} (a : s.watchesAgree) (watches : t.watches = writtenWatches r s)
    (passed : watchesPass r s) (off : ∀ w, writesWatch r w = true → (s.watch w).state = .off) : t.watchesAgree := fun w => by
  rw [watch_writtenWatches watches]
  split
  · rename_i written
    obtain ⟨inRange, constrained⟩ := passed w written
    obtain ⟨config, -, rests, idle⟩ := (Watch.agrees_iff _).mp (a w)
    obtain ⟨start, phase⟩ := idle (by simp [off w written])
    exact agrees_of_nothing ⟨constrained, writtenWatch_qualify config inRange⟩ (by simp [off w written])
      (rests (by simp [off w written])) start phase
  · exact a w

theorem watchesPass_iff (r : Request) (s : State) :
    ((List.finRange 32).all fun w => !writesWatch r w || (watchInRange r w && (writtenWatch r s w).constrained)) = true ↔
      watchesPass r s := by
  simp only [watchesPass, all_finRange, Bool.or_eq_true, Bool.not_eq_true', Bool.and_eq_true, ← Bool.not_eq_true, imp_iff_not_or]

theorem writeWatches_of_badValue {r : Request} {s : State} (h : ¬ watchesPass r s) :
    writeWatches r s = (s, .answer .badValue []) := by
  rw [← watchesPass_iff] at h
  simp only [writeWatches, h, Bool.not_false, if_true, refusedWith]

/-- Past those checks, a watch that is not OFF locks the table. -/
theorem writeWatches_of_locked {r : Request} {s : State} (passed : watchesPass r s) {w : Fin 32}
    (written : writesWatch r w = true) (on : (s.watch w).state ≠ .off) : writeWatches r s = (s, .answer .locked []) := by
  have locked : ((List.finRange 32).any fun w => writesWatch r w && decide ((s.watch w).state ≠ .off)) = true :=
    (any_finRange _).mpr ⟨w, by simp [written, on]⟩
  rw [← watchesPass_iff] at passed
  simp only [writeWatches, passed, locked, Bool.not_true, Bool.false_eq_true, if_false, if_true, refusedWith]

theorem writeWatches_of_off {r : Request} {s : State} (passed : watchesPass r s)
    (off : ∀ w, writesWatch r w = true → (s.watch w).state = .off) :
    writeWatches r s = ({ s with watches := writtenWatches r s }, .answer .ok []) := by
  have unlocked : ((List.finRange 32).any fun w => writesWatch r w && decide ((s.watch w).state ≠ .off)) = false := by
    rw [← Bool.not_eq_true, any_finRange]
    rintro ⟨w, h⟩
    obtain ⟨written, on⟩ := Bool.and_eq_true_iff.mp h
    exact of_decide_eq_true on (off w written)
  rw [← watchesPass_iff] at passed
  simp only [writeWatches, passed, unlocked, Bool.not_true, Bool.false_eq_true, if_false, acceptedWith]

theorem writeWatches_keeps_watchesAgree {s : State} (a : s.watchesAgree) (r : Request) : (writeWatches r s).1.watchesAgree := by
  by_cases passed : watchesPass r s
  · by_cases off : ∀ w, writesWatch r w = true → (s.watch w).state = .off
    · rw [writeWatches_of_off passed off]
      exact watchesAgree_of_writtenWatches a rfl passed off
    · push Not at off
      obtain ⟨w, written, on⟩ := off
      rwa [writeWatches_of_locked passed written on]
  · rwa [writeWatches_of_badValue passed]

/-- Of all owners of a WRITE the watch table's alone writes it. -/
theorem runWrite_keeps_watchesAgree {s : State} (a : s.watchesAgree) (i : Fin 4) (r : Request) :
    (runWrite i r s).1.watchesAgree := by
  unfold runWrite
  split
  · exact a
  · unfold writeOwner
    split
    case h_3 => exact writeWatches_keeps_watchesAgree a r
    case h_7 => exact a
    all_goals refine watchesAgree_congr a ?_
    · unfold writeControl writeSettings writeCountSettings setCountTable writeMode
      (repeat' split) <;> simp [refusedWith, acceptedWith]
    · unfold writeMap
      (repeat' split) <;> simp [refusedWith, acceptedWith]
    · unfold writeSlots
      (repeat' split) <;> simp [refusedWith, acceptedWith]
    · unfold writeNotice
      split <;> simp [refusedWith, acceptedWith]
    · unfold writeTiming
      (repeat' split) <;> simp [refusedWith, acceptedWith]

/-! ## Commands -/

theorem enableWatch_keeps_watchesAgree {s : State} (a : s.watchesAgree) (w : Fin 32) : (enableWatch w s).1.watchesAgree := by
  unfold enableWatch
  (repeat' split)
  · exact a
  · exact a
  · exact setWatch_keeps_watchesAgree a (started_agrees (a w))

theorem disableWatch_keeps_watchesAgree {s : State} (a : s.watchesAgree) (w : Fin 32) : (disableWatch w s).1.watchesAgree :=
  setWatch_keeps_watchesAgree a (stopped_agrees (a w))

theorem resetCapture_keeps_watchesAgree {s : State} (a : s.watchesAgree) : (resetCapture s).1.watchesAgree := by
  have cleared : (clearCapture s).watchesAgree := fun w => by
    rw [clearCapture_watch]
    exact stopped_agrees (a w)
  rw [resetCapture_eq]
  exact watchesAgree_congr cleared (by simp [clearAndMark_tables s])

theorem powerOn_watchesAgree (straps : BitVec 6) (free : Nat) (pending : List Instr) :
    (State.powerOn straps free pending).watchesAgree := fun w => by
  rw [powerOn_watch]
  exact reset_agrees

/-- An execution keeps the table's agreement when its owner does. -/
theorem execute_keeps_watchesAgree {s : State} (a : s.watchesAgree) (form : Request → Bool) (run : Execution)
    (owner : ∀ i r, (run i r s).1.watchesAgree) : (execute form run s).watchesAgree := by
  rcases execute_cases form run s with same | ⟨i, t, -, -, ⟨status, e⟩ | ⟨-, e⟩⟩
  · rwa [same]
  · rw [e]
    exact watchesAgree_congr a (by simp)
  · rw [e]
    exact watchesAgree_congr (owner i t.request) (by simp)

/-- A COMMAND row with an argument. -/
theorem executeArg_keeps_watchesAgree {α : Type} {s : State} (a : s.watchesAgree) (form : Request → Bool)
    (take : MgmtWord → Option α) (run : α → State → State × Reply) (owner : ∀ x, (run x s).1.watchesAgree) :
    (execute form (withArg take run) s).watchesAgree := by
  refine execute_keeps_watchesAgree a form _ fun i r => ?_
  unfold withArg
  split
  · exact owner _
  · exact a

/-! ## Commands that leave the watch table as it is -/

@[simp] theorem withoutArg_apply (run : State → State × Reply) (i : Fin 4) (r : Request) (s : State) :
    withoutArg run i r s = run s := rfl

@[simp] theorem runRead_watches (i : Fin 4) (r : Request) (s : State) : (runRead i r s).1.watches = s.watches := by
  unfold runRead
  split <;> rfl

@[simp] theorem runFetch_watches (i : Fin 4) (r : Request) (s : State) : (runFetch i r s).1.watches = s.watches := by
  unfold runFetch
  split <;> rfl

@[simp] theorem armSlot_watches (i : Fin 8) (s : State) : (armSlot i s).1.watches = s.watches := by
  unfold armSlot
  split <;> simp [refusedWith, acceptedWith]

@[simp] theorem disarmSlot_watches (i : Fin 8) (s : State) : (disarmSlot i s).1.watches = s.watches := by
  unfold disarmSlot
  split <;> simp [refusedWith, acceptedWith]

@[simp] theorem forceTrigger_watches (i : Fin 8) (s : State) : (forceTrigger i s).1.watches = s.watches := by
  simp [forceTrigger]

@[simp] theorem releaseHalf_watches (i : Fin 8) (h : Half) (s : State) : (releaseHalf i h s).1.watches = s.watches := by
  unfold releaseHalf releaseFull
  (repeat' split) <;> simp [refusedWith, acceptedWith]

@[simp] theorem setGate_watches (isOpen : Bool) (s : State) : (setGate isOpen s).1.watches = s.watches := rfl

@[simp] theorem ackNotice_watches (c : Fin 8) (mask : BitVec 32) (s : State) : (ackNotice c mask s).1.watches = s.watches := by
  simp [ackNotice, acceptedWith]

@[simp] theorem clearFaultRecord_watches (s : State) : (clearFaultRecord s).1.watches = s.watches := rfl

@[simp] theorem memStart_watches (s : State) : (memStart s).1.watches = s.watches := by
  unfold memStart
  split <;> rfl

@[simp] theorem memHold_watches (s : State) : (memHold s).1.watches = s.watches := by
  unfold memHold
  (repeat' split) <;> simp [refusedWith, acceptedWith]

@[simp] theorem realign_watches (p : Port) (s : State) : (realign p s).1.watches = s.watches := by
  unfold realign
  dsimp only
  split <;> simp [acceptedWith]

/-! ## Every command -/

theorem exec_keeps_watchesAgree {s t : State} (c : Instr) (a : s.watchesAgree) (h : exec c s = .next t) : t.watchesAgree := by
  cases c with
  | powerOnReset straps =>
    cases h
    exact powerOn_watchesAgree straps s.free s.pending
  | tapValue p symbols =>
    cases h
    split
    · exact foldl_inv State.watchesAgree _ (fun _ y k => receiveSymbol_keeps_watchesAgree k p y) symbols s a
    · exact a
  | lockedSymbol | receiverUp | tapProvedFalse | oversizeFrame | lossOfAlignment | frameCompletedD =>
    cases h
    split
    · exact receiveSymbol_keeps_watchesAgree a _ _
    · exact a
  | symbolReceived p symbol =>
    cases h
    exact receiveSymbol_keeps_watchesAgree a p symbol
  | frameCompletedU =>
    cases h
    split
    · exact finishHanding_keeps_watchesAgree (receiveSymbol_keeps_watchesAgree a .u .endFrame)
    · exact takeTurn_keeps_watchesAgree a
  | write | writeChannelMap | writeWatch | writeSlot | writeTimingSet | writeCountTable | writeEnableSet | writeOrderList
  | writeExpressClass | writeCheckMode =>
    cases h
    exact execute_keeps_watchesAgree a _ _ (runWrite_keeps_watchesAgree a)
  | enableWatch =>
    cases h
    exact executeArg_keeps_watchesAgree a _ _ _ (enableWatch_keeps_watchesAgree a)
  | disableWatch =>
    cases h
    exact executeArg_keeps_watchesAgree a _ _ _ (disableWatch_keeps_watchesAgree a)
  | resetCapture =>
    cases h
    exact execute_keeps_watchesAgree a _ _ fun _ _ => resetCapture_keeps_watchesAgree a
  | read | fetch | clearFault | memStart | memHold =>
    cases h
    exact execute_keeps_watchesAgree a _ _ fun _ _ => watchesAgree_congr a (by simp)
  | armSlot | disarmSlot | forceTrigger | releaseHalf | gate | ackNotice | realign =>
    cases h
    exact executeArg_keeps_watchesAgree a _ _ _ fun _ => watchesAgree_congr a (by simp)
  | pauseEnd | burstEnd | refreshDue | refreshEnd | fetchReadEnd | countTableWriteEnd | initSequenceEnd | closingOperationEnd
  | exitSequenceEnd | holdoffExpiry | dFrameSent | uFrameSent =>
    cases h
    refine watchesAgree_congr a ?_
    (repeat' split) <;> simp

end Sys2Proof.Machine

open Sys2Proof Sys2Proof.Machine

/-- Settles O13: every command keeps each watch's agreement, and a step of the microsecond counter touches no watch. -/
theorem stepKeepsWatches : Obligations.StepKeepsWatches := by
  intro s t a h
  cases pending : s.pending with
  | nil =>
    rw [step_of_empty pending] at h
    cases h
    exact watchesAgree_congr a (by simp)
  | cons c rest =>
    have runs : step s = exec c (s.withQueue rest) := by simp [step, pending]
    have before : (s.withQueue rest).watchesAgree := watchesAgree_congr a (by simp [State.withQueue])
    exact exec_keeps_watchesAgree c before (runs ▸ h)
end

section
/-! SUPPORT. The functional statements on level and crossing watches (R23, R25 to R29). -/

namespace Sys2Proof.Machine

/-- A crossing watch, given which samples prime and which fire it (R29). -/
theorem crossing_primes_then_fires {x : Watch} {v : Sample} {primes fires : Prop} (time : Tick)
    (kind : x.config.kind = .rise ∨ x.config.kind = .fall)
    (edges : (x.config.edge v.toInt = .leading ↔ fires) ∧ (x.config.edge v.toInt = .trailing ↔ primes)) :
    (x.state = .unprimed → primes → x.onSample v time = ({ x with state := .clear }, false)) ∧
    (x.state = .unprimed → ¬ primes → x.onSample v time = (x, false)) ∧
    (x.state = .clear → fires → x.onSample v time = ({ x with state := .unprimed }, true)) ∧
    (x.state = .clear → ¬ fires → x.onSample v time = (x, false)) := by
  obtain ⟨leading, trailing⟩ := edges
  rw [onSample_of_crossing v time kind, ← leading, ← trailing]
  refine ⟨fun state yes => ?_, fun state no => ?_, fun state yes => ?_, fun state no => ?_⟩
  · rw [crossingMove_of_unprimed _ state, if_pos yes]
  · rw [crossingMove_of_unprimed _ state, if_neg no]
  · rw [crossingMove_of_clear _ state, if_pos yes]
  · rw [crossingMove_of_clear _ state, if_neg no]

end Sys2Proof.Machine

open Sys2Proof Sys2Proof.Machine

/-- Settles O28: kind by kind, the two tests of the side as inequalities. -/
theorem levelKindsSortSamplesBySide : Obligations.LevelKindsSortSamplesBySide := by
  intro c v s a b h
  refine ⟨fun kind => side_above kind s, fun kind => side_below kind s, fun kind constrained => side_bandOut kind ?_ s⟩
  simpa [WatchConfig.constrained, kind] using constrained

/-- Settles O29: the level move of each state, at the side the sample is sorted to. -/
theorem levelWatchMovesOneStepPerSample : Obligations.LevelWatchMovesOneStepPerSample := by
  intro x v time kind side
  rw [onSample_of_level v time kind]
  refine ⟨?_, ?_, ?_, ?_, ?_, ?_, ?_, ?_, ?_, ?_, ?_, ?_⟩
  · intro state onFalse
    rw [levelMove_of_unprimed _ state, if_pos onFalse]
  · intro state other
    rw [levelMove_of_unprimed _ state, if_neg other]
  · intro state other
    rw [levelMove_of_clear _ state, if_neg other]
  · intro state onTrue one
    rw [levelMove_of_clear _ state, if_pos onTrue, qualified_of_reached (by omega)]
  · intro state onTrue more
    rw [levelMove_of_clear _ state, if_pos onTrue, qualified_of_short (by omega)]
  · intro state other
    rw [levelMove_of_qualifying _ state, if_neg other]
  · intro state onTrue short
    rw [levelMove_of_qualifying _ state, if_pos onTrue, qualified_of_short short, state]
  · intro state onTrue reached
    rw [levelMove_of_qualifying _ state, if_pos onTrue, qualified_of_reached (by omega)]
  · intro state onFalse
    rw [levelMove_of_asserted _ state, if_pos onFalse]
  · intro state hold
    have same : x.config.side v.toInt = .hold := hold
    simp [levelMove_of_asserted _ state, same]
  · intro state onTrue edge
    have same : x.config.side v.toInt = .onTrue := onTrue
    simp [levelMove_of_asserted _ state, same, edge]
  · intro state onTrue level
    have same : x.config.side v.toInt = .onTrue := onTrue
    simp [levelMove_of_asserted _ state, same, level]

/-- Settles O30: RISE and FALL differ only in which samples are leading and which trailing. -/
theorem crossingWatchPrimesThenFires : Obligations.CrossingWatchPrimesThenFires := by
  intro x v time s a h
  refine ⟨fun kind => crossing_primes_then_fires time (.inl kind) (edge_rising ?_ s),
    fun kind => crossing_primes_then_fires time (.inr kind) (edge_falling ?_ s)⟩
  · simp [WatchConfig.rising, kind]
  · simp [WatchConfig.rising, kind]
end

section
/-! SUPPORT. FiringWatchNotesTimeAndOutcome: the request a fire makes, its outcome and its source (R31 to R33, R64). -/

namespace Sys2Proof.Machine

/-- The outcome of a request, by the state it finds its slot in (R33). -/
def SlotState.outcome : SlotState → RequestOutcome
  | .armed => .taken
  | .post => .retriggered
  | .idle => .refusedIdle
  | .stalled => .refusedStalled

theorem trigger_outcome (i : Fin 8) (source : Nat) (t : Tick) (s : State) :
    (trigger i source t s).2 = (s.slot i).live.state.outcome := by
  unfold trigger
  split
  case h_3 state | h_4 state => split <;> simp [SlotState.outcome, state]
  all_goals simp_all [SlotState.outcome]

/-- A request reaches its own slot alone (R64). -/
theorem trigger_slot_ne {i j : Fin 8} (source : Nat) (t : Tick) (s : State) (n : j ≠ i) :
    (trigger i source t s).1.slot j = s.slot j := by
  unfold trigger
  split
  · rfl
  · exact slot_congr (by simp) j
  · split
    · exact slot_setSlot_ne s _ n
    · rfl
  · split
    · exact slot_setSlot_ne s _ n
    · rfl

/-- A CLOSED gate keeps the request from the slot (R32). -/
theorem requestTrigger_of_closed {s : State} (w : Fin 32) (t : Tick) (h : s.capture.gateOpen = false) :
    requestTrigger w t s = (s, .gated) := by
  simp [requestTrigger, h]

theorem requestTrigger_of_open {s : State} (w : Fin 32) (t : Tick) (h : s.capture.gateOpen = true) :
    requestTrigger w t s = trigger (s.watch w).config.target w.val t s := by
  simp [requestTrigger, h]

/-- A fire moves the slots as its request does. -/
theorem fireWatch_slots (w : Fin 32) (t : Tick) (s : State) : (fireWatch w t s).slots = (requestTrigger w t s).1.slots := by
  simp [fireWatch]

theorem watch_fireWatch (w : Fin 32) (t : Tick) (s : State) :
    (fireWatch w t s).watch w = { s.watch w with lastFire := t, lastOutcome := (requestTrigger w t s).2 } := by
  rw [watch_congr (fireWatch_watches w t s), watch_setWatch]

theorem watch_fireWatch_ne {w v : Fin 32} (t : Tick) (s : State) (n : v ≠ w) : (fireWatch w t s).watch v = s.watch v := by
  rw [watch_congr (fireWatch_watches w t s), watch_setWatch_ne s _ n]

/-- Every watch has a source of its own in WATCH-FIRED (R130). -/
theorem watchFired_source (w : Fin 32) : (sourceBit w &&& classSources classWatchFired).getLsbD w.val = true := by
  revert w
  decide

theorem fireWatch_pending (w : Fin 32) (t : Tick) (s : State) :
    (fireWatch w t s).notices.pending[classWatchFired].getLsbD w.val = true := by
  have raised : (fireWatch w t s).notices.pending[classWatchFired] =
      (requestTrigger w t s).1.notices.pending[classWatchFired] ||| (sourceBit w &&& classSources classWatchFired) := by
    simp [fireWatch]
  rw [raised, BitVec.getLsbD_or, watchFired_source, Bool.or_true]

end Sys2Proof.Machine

open Sys2Proof Sys2Proof.Machine

/-- Settles O32: what the gate lets through to the slot, then the notes and the source of the fire. -/
theorem firingWatchNotesTimeAndOutcome : Obligations.FiringWatchNotesTimeAndOutcome := by
  intro s w time target outcome
  have request : (requestTrigger w time s).2 = outcome := by
    cases gate : s.capture.gateOpen with
    | false => simp [requestTrigger_of_closed w time gate, outcome, gate]
    | true =>
      simp only [requestTrigger_of_open w time gate, trigger_outcome, outcome, gate, target]
      cases (s.slot (s.watch w).config.target).live.state <;> rfl
  refine ⟨request ▸ watch_fireWatch w time s, fun v n => watch_fireWatch_ne time s n, fireWatch_pending w time s,
    fun closed => ?_, fun opened => ?_, fun i n => ?_, by simp, by simp, by simp⟩
  · rw [fireWatch_slots, requestTrigger_of_closed w time closed]
  · rw [fireWatch_slots, requestTrigger_of_open w time opened]
  · rw [slot_congr (fireWatch_slots w time s)]
    cases gate : s.capture.gateOpen with
    | false => rw [requestTrigger_of_closed w time gate]
    | true => rw [requestTrigger_of_open w time gate, trigger_slot_ne _ _ _ n]
end

section
/-! SUPPORT. WatchIsEnabledAndDisabled: the two commands on a watch and their argument (R30, R34, R35). -/

namespace Sys2Proof.Machine

theorem enableWatch_of_on {s : State} {w : Fin 32} (h : (s.watch w).state ≠ .off) :
    enableWatch w s = (s, .answer .wrongState []) := by
  simp [enableWatch, h, refusedWith]

/-- An OFF watch whose entry is not valid is not enabled. -/
theorem enableWatch_of_invalid {s : State} {w : Fin 32} (off : (s.watch w).state = .off)
    (h : (s.channel (s.watch w).config.channel).valid = false) : enableWatch w s = (s, .answer .badValue []) := by
  simp [enableWatch, off, h, refusedWith]

theorem enableWatch_of_valid {s : State} {w : Fin 32} (off : (s.watch w).state = .off)
    (h : (s.channel (s.watch w).config.channel).valid = true) :
    enableWatch w s = (s.setWatch w (s.watch w).started, .answer .ok []) := by
  simp [enableWatch, off, h, acceptedWith]

/-- A COMMAND on a watch is answered as its owner answers for the watch its argument names. -/
theorem execute_watchCommand {s u : State} {code : Nat} {i : Fin 4} {q : Taken} {status : Status} {w : Fin 32}
    {run : Fin 32 → State → State × Reply} (h : s.runsCommand code i q) (arg : w.val = q.request.argument.toNat % 256)
    (owner : run w s = (u, .answer status [])) :
    Responded u (execute (Request.asksFor code) (withArg watchArg run) s) i q status [] := by
  refine execute_answers h.1 (asksFor_of_runsCommand h) ?_
  rw [withArg, watchArg_of_watch w arg]
  exact owner

theorem execute_watchCommand_of_large {s : State} {code : Nat} {i : Fin 4} {q : Taken} {run : Fin 32 → State → State × Reply}
    (h : s.runsCommand code i q) (arg : 32 ≤ q.request.argument.toNat % 256) :
    Responded s (execute (Request.asksFor code) (withArg watchArg run) s) i q .badValue [] := by
  refine execute_answers h.1 (asksFor_of_runsCommand h) ?_
  rw [withArg, watchArg_of_large arg]
  rfl

end Sys2Proof.Machine

open Sys2Proof Sys2Proof.Machine

/-- Settles O54: the argument checked, then the two owners case by case. -/
theorem watchIsEnabledAndDisabled : Obligations.WatchIsEnabledAndDisabled := by
  intro s i q arg
  refine ⟨fun runs large => ⟨_, rfl, execute_watchCommand_of_large runs large⟩,
    fun runs large => ⟨_, rfl, execute_watchCommand_of_large runs large⟩, ?_⟩
  intro w named x entry
  refine ⟨?_, ?_, ?_, ?_⟩
  · exact fun runs on => ⟨_, rfl, execute_watchCommand runs named (enableWatch_of_on on)⟩
  · exact fun runs off invalid => ⟨_, rfl, execute_watchCommand runs named (enableWatch_of_invalid off invalid)⟩
  · intro runs off valid
    have started := enableWatch_of_valid off valid
    unfold Watch.started Watch.entering WatchConfig.startState at started
    refine ⟨_, rfl, execute_watchCommand runs named (started.trans ?_)⟩
    cases x.config.kind <;> cases x.config.sensitivity <;> rfl
  · exact fun runs => ⟨_, rfl, execute_watchCommand runs named rfl⟩
end

section
/-! SUPPORT. WatchWriteIsTakenWholeOrRefused: the fields of a watch's configuration words, the checks of a WRITE to space 2 as the
rules word them, and the configuration it leaves (R20 to R22, R183). -/

namespace Sys2Proof.Machine

/-! ## Words put together from fields (11.4, R183) -/

/-- A field put back where it was taken from is the word under the field's mask. -/
theorem place_bits (v : MgmtWord) (lo width : Nat) (h : lo + width ≤ 32) :
    place lo width (bits v lo width) = v &&& place lo width (2 ^ width - 1) := by
  apply BitVec.eq_of_getLsbD_eq
  intro k _
  rw [BitVec.getLsbD_and, getLsbD_place _ _ _ _ h, getLsbD_place _ _ _ _ h, testBit_bits, Nat.testBit_two_pow_sub_one]
  by_cases low : lo ≤ k
  · rw [Nat.add_sub_cancel' low]
    cases v.getLsbD k <;> simp
  · simp [low]

/-- A bit vector made of a field reads the field. -/
theorem toNat_ofNat_bits (v : MgmtWord) (lo width : Nat) : (BitVec.ofNat width (bits v lo width)).toNat = bits v lo width := by
  rw [BitVec.toNat_ofNat, Nat.mod_eq_of_lt (bits_lt v lo width)]

theorem kindOf_isSome_iff (n : Nat) : (kindOf n).isSome = true ↔ n ≤ 6 := by
  rcases Nat.lt_or_ge n 7 with small | large
  · interval_cases n <;> decide
  · obtain ⟨m, rfl⟩ := Nat.exists_eq_add_of_le' large
    simp [kindOf]

theorem code_of_kindOf {n : Nat} (h : n ≤ 6) (k : WatchKind) : ((kindOf n).getD k).code = n := by
  interval_cases n <;> rfl

theorem code_of_sensitivityBit (v : MgmtWord) :
    (if bits v 17 1 = 1 then Sensitivity.level else Sensitivity.edge).code = bits v 17 1 := by
  have := bits_lt v 17 1
  split
  · simp [Sensitivity.code, *]
  · simp only [Sensitivity.code]
    omega

theorem code_of_polarityBit (v : MgmtWord) :
    (if bits v 16 1 = 1 then Polarity.falling else Polarity.rising).code = bits v 16 1 := by
  have := bits_lt v 16 1
  split
  · simp [Polarity.code, *]
  · simp only [Polarity.code]
    omega

/-! ## The words of a watch after a WRITE (R183) -/

/-- The watch with the configuration the carried words give. -/
def Watch.withWords (x : Watch) (w0 w1 w2 w3 : Option MgmtWord) : Watch :=
  { x with config := x.config.withWords w0 w1 w2 w3 }

theorem word0_withWords (x : Watch) {w0 : Option MgmtWord} (w1 w2 w3 : Option MgmtWord)
    (kind : ∀ v, w0 = some v → bits v 20 3 ≤ 6) :
    (x.withWords w0 w1 w2 w3).word 0 = w0.elim (x.word 0) fun v => v &&& 0xFFF37FFF#32 := by
  cases w0 with
  | none => rfl
  | some v =>
    simp only [Watch.withWords, Watch.word, WatchConfig.withWords, carried, Option.elim, code_of_kindOf (kind v rfl),
      code_of_sensitivityBit, code_of_polarityBit, toNat_ofNat_bits, place_bits, Nat.reduceAdd, Nat.reduceLeDiff,
      ← BitVec.and_or_distrib_left]
    rfl

theorem word1_withWords (x : Watch) (w0 w1 w2 w3 : Option MgmtWord) :
    (x.withWords w0 w1 w2 w3).word 1 = w1.elim (x.word 1) fun v => v &&& 0xFFFFFFFF#32 := by
  cases w1 with
  | none => rfl
  | some v =>
    simp only [Watch.withWords, Watch.word, WatchConfig.withWords, carried, Option.elim, toNat_ofNat_bits, place_bits,
      Nat.reduceAdd, Nat.reduceLeDiff, ← BitVec.and_or_distrib_left]
    rfl

theorem word2_withWords (x : Watch) (w0 w1 w2 w3 : Option MgmtWord) :
    (x.withWords w0 w1 w2 w3).word 2 = w2.elim (x.word 2) fun v => v &&& 0xFFFFFFFF#32 := by
  cases w2 with
  | none => rfl
  | some v =>
    simp only [Watch.withWords, Watch.word, WatchConfig.withWords, carried, Option.elim, toNat_ofNat_bits, place_bits,
      Nat.reduceAdd, Nat.reduceLeDiff, ← BitVec.and_or_distrib_left]
    rfl

theorem word3_withWords (x : Watch) (w0 w1 w2 : Option MgmtWord) {w3 : Option MgmtWord}
    (max : ∀ v, w3 = some v → v.toNat ≤ 16777215) :
    (x.withWords w0 w1 w2 w3).word 3 = w3.elim (x.word 3) fun v => v &&& 0xFFFFFFFF#32 := by
  cases w3 with
  | none => rfl
  | some v =>
    have fits := max v rfl
    have field : (BitVec.ofNat 24 (bits v 0 24)).toNat = v.toNat := by
      rw [toNat_ofNat_bits]
      simp only [bits]
      omega
    have whole : place 0 24 v.toNat = v := by
      apply BitVec.eq_of_toNat_eq
      simp only [place, BitVec.toNat_ofNat]
      omega
    simp only [Watch.withWords, Watch.word, WatchConfig.withWords, carried, Option.elim, field, whole]
    exact (BitVec.and_allOnes (x := v)).symm

/-! ## The checks as the rules word them (R20 to R22) -/

theorem bits_kindField (v : MgmtWord) : bits v 20 3 = v.toNat / 1048576 % 8 := by
  simp [bits]

/-- The top octet of a word needs no mask. -/
theorem bits_topOctet (v : MgmtWord) : bits v 24 8 = v.toNat / 16777216 := by
  have := v.isLt
  simp only [bits]
  omega

theorem watchInRange_iff (r : Request) (w : Fin 32) :
    watchInRange r w = true ↔
      (∀ v, r.covered (8 * w.val) = some v → v.toNat / 1048576 % 8 ≤ 6) ∧
        (∀ v, r.covered (8 * w.val + 2) = some v → 1 ≤ v.toNat / 16777216) ∧
          ∀ v, r.covered (8 * w.val + 3) = some v → v.toNat ≤ 16777215 := by
  simp only [watchInRange, Bool.and_eq_true, wordPasses_iff, kindOf_isSome_iff, bits_kindField, bits_topOctet, decide_eq_true_eq,
    Nat.one_le_iff_ne_zero, and_assoc]

theorem writesWatch_iff (r : Request) (w : Fin 32) :
    writesWatch r w = true ↔ ∃ k, k < 4 ∧ (r.covered (8 * w.val + k)).isSome = true := by
  have range : [0, 1, 2, 3] = List.range 4 := rfl
  simp [writesWatch, range]

/-- A watch of which no word is covered has nothing to check and keeps its configuration. -/
theorem unwritten_watch {r : Request} {w : Fin 32} (h : ¬ writesWatch r w = true) (s : State) :
    watchInRange r w = true ∧ writtenWatch r s w = (s.watch w).config := by
  have uncovered : ∀ k, k < 4 → r.covered (8 * w.val + k) = none := fun k lt => by
    simpa using fun some => h ((writesWatch_iff r w).mpr ⟨k, lt, some⟩)
  have zero : r.covered (8 * w.val) = none := uncovered 0 (by decide)
  simp [watchInRange, writtenWatch, zero, uncovered, wordPasses, WatchConfig.withWords, carried]

/-- Every watch in range leaves the constraints of the kinds to check (R21). -/
theorem watchesPass_of_inRange {r : Request} {s : State} (h : ∀ w, watchInRange r w = true) :
    watchesPass r s ↔ ∀ w, writesWatch r w = true → (writtenWatch r s w).constrained = true := by
  simp only [watchesPass, h, true_and]

theorem inRange_of_watchesPass {r : Request} {s : State} (h : watchesPass r s) (w : Fin 32) : watchInRange r w = true := by
  by_cases written : writesWatch r w = true
  · exact (h w written).1
  · exact (unwritten_watch written s).1

/-! ## What the WRITE leaves (R22) -/

theorem watch_of_writtenWatches {r : Request} {s t : State} (h : t.watches = writtenWatches r s) (w : Fin 32) :
    t.watch w = { s.watch w with config := writtenWatch r s w } := by
  rw [watch_writtenWatches h]
  split
  · rfl
  · rename_i unwritten
    rw [(unwritten_watch unwritten s).2]

/-- A WRITE to space 2 is answered as its owner answers. -/
theorem answersWith_of_writeWatches {s u : State} {i : Fin 4} {q : Taken} {status : Status} (h : s.runsWrite 2 i q)
    (owner : writeWatches q.request s = (u, .answer status [])) : answersWith .writeWatch s u i q status [] := by
  obtain ⟨run, space, -⟩ := runWrite_of_runsWrite h
  obtain ⟨now, form, -⟩ := h
  refine ⟨_, rfl, execute_answers now form ?_⟩
  rw [run, writeOwner, space]
  exact owner

end Sys2Proof.Machine

open Sys2Proof Sys2Proof.Machine

/-- Settles O46: the words of the configuration written, then the checks in their order and the table written whole. -/
theorem watchWriteIsTakenWholeOrRefused : Obligations.WatchWriteIsTakenWholeOrRefused := by
  intro s i q runs carries written inRange mask constrained
  have inRangeIff : inRange ↔ ∀ w, watchInRange q.request w = true := forall_congr' fun w => (watchInRange_iff q.request w).symm
  have writtenIff : ∀ w, written w ↔ writesWatch q.request w = true := fun w => (writesWatch_iff q.request w).symm
  have constrainedIff : ∀ c, constrained c ↔ c.constrained = true := fun c => by
    simp only [constrained, WatchConfig.constrained]
    cases c.kind with
    | bandOut => exact decide_eq_true_iff.symm
    | above | below | rise | fall | width | period =>
      simp only [BitVec.le_def, Bool.and_eq_true, decide_eq_true_eq, and_assoc]
  simp only [inRangeIff, writtenIff, constrainedIff]
  refine ⟨fun out => ?_, fun ok => ⟨writtenWatch q.request s, fun w k lt => ?_, fun w => ?_, fun bad => ?_,
    fun good locked => ?_, fun good off => ?_⟩⟩
  · exact answersWith_of_writeWatches runs (writeWatches_of_badValue fun passed => out (inRange_of_watchesPass passed))
  · obtain ⟨kind, -, max⟩ := (watchInRange_iff q.request w).mp (ok w)
    simp only [← bits_kindField] at kind
    interval_cases k
    · exact word0_withWords _ _ _ _ kind
    · exact word1_withWords _ _ _ _ _
    · exact word2_withWords _ _ _ _ _
    · exact word3_withWords _ _ _ _ max
  · simp only [writtenWatch, WatchConfig.withWords, carried_eq_elim, bits_topOctet, carries]
  · obtain ⟨w, covered, broken⟩ := bad
    exact answersWith_of_writeWatches runs
      (writeWatches_of_badValue fun passed => broken ((watchesPass_of_inRange ok).mp passed w covered))
  · obtain ⟨w, covered, on⟩ := locked
    exact answersWith_of_writeWatches runs (writeWatches_of_locked ((watchesPass_of_inRange ok).mpr good) covered on)
  · exact ⟨_, answersWith_of_writeWatches runs (writeWatches_of_off ((watchesPass_of_inRange ok).mpr good) off),
      watch_of_writtenWatches rfl, rfl⟩
end

section
/-! SUPPORT. MeasuringWatchTimesWidthsAndPeriods: the measuring kinds' move state by state, and the window (R40, R42 to R48). -/

namespace Sys2Proof.Machine

/-! ## Which move a measuring kind makes, and on which edge (R40) -/

theorem onSample_of_measuring {x : Watch} (v : Sample) (t : Tick) (kind : x.config.kind = .width ∨ x.config.kind = .period) :
    x.onSample v t = x.measuringMove (x.config.edge v.toInt) t := by
  rcases kind with h | h <;> simp only [Watch.onSample, h]

/-- A measuring kind looks in the direction of its polarity. -/
theorem rising_of_measuring {c : WatchConfig} (kind : c.kind = .width ∨ c.kind = .period) :
    c.rising = decide (c.polarity = .rising) := by
  rcases kind with h | h <;> simp only [WatchConfig.rising, h]

/-! ## Measuring moves (R42 to R44) -/

theorem measuringMove_of_unprimed {x : Watch} (edge : Edge) (t : Tick) (h : x.state = .unprimed) :
    x.measuringMove edge t = if edge = .trailing then ({ x with state := .clear }, false) else (x, false) := by
  simp only [Watch.measuringMove, h]

theorem measuringMove_of_clear {x : Watch} (edge : Edge) (t : Tick) (h : x.state = .clear) :
    x.measuringMove edge t =
      if edge = .leading then ({ x with state := .measuring, startTime := t, phase := .away }, false) else (x, false) := by
  simp only [Watch.measuringMove, h]

/-- An overrun is found before the sample is looked at as an edge (R44). -/
theorem measuringMove_of_overrun {x : Watch} (edge : Edge) {t : Tick} (h : x.state = .measuring)
    (overrun : Config.measurementLimit < (x.elapsed t).toNat) :
    x.measuringMove edge t = ({ x.entering .unprimed with lastResult := .overrun }, true) := by
  simp only [Watch.measuringMove, h, overrun, if_true]

theorem measuringMove_of_within {x : Watch} (edge : Edge) {t : Tick} (h : x.state = .measuring)
    (within : (x.elapsed t).toNat ≤ Config.measurementLimit) : x.measuringMove edge t = x.measureMove edge t := by
  simp only [Watch.measuringMove, h, Nat.not_lt.mpr within, if_false]

/-! ## The ends of a width and of a period (R45, R46) -/

theorem measureMove_of_width {x : Watch} (edge : Edge) (t : Tick) (kind : x.config.kind = .width) :
    x.measureMove edge t =
      if edge = .trailing then ({ x.entering .clear with lastResult := .result (x.measured t) }, x.config.outside (x.measured t))
      else (x, false) := by
  cases edge <;> simp [Watch.measureMove, kind]

theorem measureMove_of_period {x : Watch} (edge : Edge) (t : Tick) (kind : x.config.kind = .period) :
    x.measureMove edge t =
      if edge = .trailing then ({ x with phase := .back }, false)
      else if edge = .leading ∧ x.phase = .back then
        ({ x with lastResult := .result (x.measured t), startTime := t, phase := .away }, x.config.outside (x.measured t))
      else (x, false) := by
  cases edge <;> cases phase : x.phase <;> simp [Watch.measureMove, kind, phase]

/-! ## The window (R47) -/

/-- Without an overrun the result is the elapsed ticks unreduced, and the window is checked against them. -/
theorem outside_measured {x : Watch} {t : Tick} (within : (x.elapsed t).toNat ≤ Config.measurementLimit) :
    x.config.outside (x.measured t) =
      (decide ((x.elapsed t).toNat < x.config.windowMin.toNat) || decide (x.config.windowMax.toNat < (x.elapsed t).toNat)) := by
  have fits : (x.elapsed t).toNat < 2 ^ 24 := Nat.lt_succ_of_le within
  simp only [WatchConfig.outside, Watch.measured, BitVec.lt_def, BitVec.toNat_ofNat, Nat.mod_eq_of_lt fits]

end Sys2Proof.Machine

open Sys2Proof Sys2Proof.Machine

/-- Settles O31: the move of each state on the edge the sample is sorted to; in MEASURING the overrun first, then the kind. -/
theorem measuringWatchTimesWidthsAndPeriods : Obligations.MeasuringWatchTimesWidthsAndPeriods := by
  intro x v time kind s a h leading trailing elapsed outside result
  have edges : (x.config.edge s = .leading ↔ leading) ∧ (x.config.edge s = .trailing ↔ trailing) := by
    have direction := rising_of_measuring kind
    simp only [leading, trailing]
    cases polarity : x.config.polarity with
    | rising => exact edge_rising (by simp [direction, polarity]) s
    | falling => exact edge_falling (by simp [direction, polarity]) s
  obtain ⟨isLeading, isTrailing⟩ := edges
  have move : x.onSample v time = x.measuringMove (x.config.edge s) time := onSample_of_measuring v time kind
  rw [move, ← isLeading, ← isTrailing]
  refine ⟨fun state yes => ?_, fun state no => ?_, fun state yes => ?_, fun state no => ?_, fun state overrun => ?_,
    fun state within width => ?_, fun state within period => ?_⟩
  · rw [measuringMove_of_unprimed _ time state, if_pos yes]
  · rw [measuringMove_of_unprimed _ time state, if_neg no]
  · rw [measuringMove_of_clear _ time state, if_pos yes]
  · rw [measuringMove_of_clear _ time state, if_neg no]
  · exact measuringMove_of_overrun _ state overrun
  · have window : x.config.outside (x.measured time) = outside := outside_measured within
    rw [measuringMove_of_within _ state within, measureMove_of_width _ time width, window]
    exact ⟨fun yes => if_pos yes, fun no => if_neg no⟩
  · have window : x.config.outside (x.measured time) = outside := outside_measured within
    rw [measuringMove_of_within _ state within, measureMove_of_period _ time period, window]
    refine ⟨fun trails => if_pos trails, fun leads back => ?_, fun leads away => ?_, fun noTrail noLead => ?_⟩
    · exact (if_neg (by simp [leads])).trans (if_pos ⟨leads, back⟩)
    · exact (if_neg (by simp [leads])).trans (if_neg (by simp [away]))
    · exact (if_neg noTrail).trans (if_neg fun ends => noLead ends.1)
end

section
/-! SUPPORT. The slot a half's change of state leaves: taken, emptied, listed FULL, sealed, put to rest; and which half is which. -/

namespace Sys2Proof.Machine

/-! ## The two halves -/

theorem half_eq_or_other (k h : Half) : k = h ∨ k = h.other := by
  cases k <;> cases h <;> simp [Half.other]

@[simp] theorem half_other_ne (h : Half) : h.other ≠ h := by
  cases h <;> simp [Half.other]

@[simp] theorem half_other_other (h : Half) : h.other.other = h := by
  cases h <;> rfl

/-- What holds of a half and of the other holds of both. -/
theorem forall_half {p : Half → Prop} (h : Half) : (∀ k, p k) ↔ p h ∧ p h.other := by
  refine ⟨fun all => ⟨all h, all h.other⟩, fun ⟨one, two⟩ k => ?_⟩
  rcases half_eq_or_other k h with rfl | rfl
  · exact one
  · exact two

@[simp] theorem setSlot_setSlot (s : State) (i : Fin 8) (x y : Slot) : (s.setSlot i x).setSlot i y = s.setSlot i y := by
  simp [State.setSlot]

theorem setSlot_slots_congr {s t : State} (h : t.slots = s.slots) (i : Fin 8) (x : Slot) :
    (t.setSlot i x).slots = (s.setSlot i x).slots := by
  simp only [State.setSlot, h]

/-- A table in which one slot was set, read at that slot and at any other. -/
theorem slot_of_slots {s t : State} {i : Fin 8} {x : Slot} (h : t.slots = (s.setSlot i x).slots) :
    t.slot i = x ∧ ∀ j, j ≠ i → t.slot j = s.slot j :=
  ⟨by rw [slot_congr h, slot_setSlot], fun j n => by rw [slot_congr h, slot_setSlot_ne s x n]⟩

/-! ## The slot after each change -/

/-- The slot with one half's record and the live fields as given: the form of every change that a capture makes to a slot. -/
def Slot.updated (x : Slot) (h : Half) (r : CaptureRecord) (l : SlotLive) : Slot :=
  { x.setRecord h r with live := l }

@[simp] theorem record_updated (x : Slot) (h : Half) (r : CaptureRecord) (l : SlotLive) : (x.updated h r l).record h = r := by
  cases h <;> rfl

@[simp] theorem record_updated_other (x : Slot) (h : Half) (r : CaptureRecord) (l : SlotLive) :
    (x.updated h r l).record h.other = x.record h.other := by
  cases h <;> rfl

@[simp] theorem config_updated (x : Slot) (h : Half) (r : CaptureRecord) (l : SlotLive) : (x.updated h r l).config = x.config := by
  cases h <;> rfl

@[simp] theorem live_updated (x : Slot) (h : Half) (r : CaptureRecord) (l : SlotLive) : (x.updated h r l).live = l := rfl

/-- A second change of the same half overwrites the first. -/
@[simp] theorem updated_updated (x : Slot) (h : Half) (r r' : CaptureRecord) (l l' : SlotLive) :
    (x.updated h r l).updated h r' l' = x.updated h r' l' := by
  cases h <;> rfl

theorem setRecord_eq_updated (x : Slot) (h : Half) (r : CaptureRecord) : x.setRecord h r = x.updated h r x.live := by
  cases h <;> rfl

theorem withLive_eq_updated (x : Slot) (h : Half) (l : SlotLive) : { x with live := l } = x.updated h (x.record h) l := by
  cases h <;> rfl

/-- The slot with a half taken: ARMED on it, its record cleared (R60, R81). -/
def Slot.taken (x : Slot) (h : Half) : Slot :=
  x.updated h (CaptureRecord.cleared .active) { SlotLive.cleared .armed with active := some h }

/-- The slot put to rest in a state (R57). -/
def Slot.rested (x : Slot) (state : SlotState) : Slot :=
  { x with live := SlotLive.cleared state }

/-- Taking a half overwrites whatever the live fields held. -/
@[simp] theorem taken_rested (x : Slot) (state : SlotState) (h : Half) : (x.rested state).taken h = x.taken h := by
  cases h <;> rfl

@[simp] theorem record_rested (x : Slot) (state : SlotState) (h : Half) : (x.rested state).record h = x.record h :=
  record_with_live x _ h

@[simp] theorem rested_updated (x : Slot) (h : Half) (r : CaptureRecord) (l : SlotLive) (state : SlotState) :
    (x.updated h r l).rested state = x.updated h r (SlotLive.cleared state) := rfl

/-- The record of a half whose capture is over (R71). -/
def CaptureRecord.ended (r : CaptureRecord) (time : Tick) : CaptureRecord :=
  { r with state := .sealing, lastSampleTime := time }

theorem sealed_eq (x : Slot) (h : Half) :
    x.sealed h = x.updated h ((x.record h).ended x.live.lastStored) { x.live with active := none } := rfl

/-- The live fields after a sample stored (R61). -/
def Slot.storedLive (x : Slot) (t : Tick) : SlotLive :=
  { x.live with
    writePos := (x.live.writePos + 1) % x.config.size
    lastStored := t
    firstPostPending := if x.live.state = .post then false else x.live.firstPostPending }

theorem stored_eq (x : Slot) (h : Half) (t : Tick) : x.stored h t = x.updated h (x.storedRecord h t) (x.storedLive t) := rfl

@[simp] theorem record_stored (x : Slot) (h : Half) (t : Tick) : (x.stored h t).record h = x.storedRecord h t :=
  record_updated x h _ _

@[simp] theorem config_stored (x : Slot) (h : Half) (t : Tick) : (x.stored h t).config = x.config :=
  config_updated x h _ _

@[simp] theorem live_stored (x : Slot) (h : Half) (t : Tick) : (x.stored h t).live = x.storedLive t := rfl

/-- A post sample counts one (R66). -/
theorem storedRecord_postCount {x : Slot} (h : Half) (t : Tick) (post : x.live.state = .post) :
    (x.storedRecord h t).postCount = (x.record h).postCount + 1 := by
  simp only [Slot.storedRecord, post, if_true]
  split <;> rfl

theorem triggered_eq (x : Slot) (h : Half) (source : Nat) (t : Tick) :
    x.triggered h source t = x.updated h
      { x.record h with
        triggerSource := source, triggerTime := t, preCount := min x.config.pre (x.record h).filled, postCount := 0 }
      { x.live with state := .post, postTarget := x.config.post, firstPostPending := true, earlyRaised := false } := rfl

/-- A retrigger under IGNORE is counted and nothing else (R68). -/
theorem retriggered_of_ignore {x : Slot} (h : Half) (policy : x.config.retrigger = .ignore) :
    x.retriggered h = x.updated h { x.record h with retriggers := min ((x.record h).retriggers + 1) 255 } x.live := by
  simp only [Slot.retriggered, policy]
  exact setRecord_eq_updated x h _

/-- A retrigger under EXTEND moves the target out, as far as the half has room (R69). -/
theorem retriggered_of_extend {x : Slot} (h : Half) (policy : x.config.retrigger = .extend) :
    x.retriggered h = x.updated h
      { x.record h with
        retriggers := min ((x.record h).retriggers + 1) 255
        extended := true
        clipped :=
          if (x.record h).preCount + ((x.record h).postCount + x.config.post) ≤ x.config.size then (x.record h).clipped
          else true }
      { x.live with
        postTarget :=
          if (x.record h).preCount + ((x.record h).postCount + x.config.post) ≤ x.config.size then
            (x.record h).postCount + x.config.post
          else x.config.size - (x.record h).preCount } := by
  simp only [Slot.retriggered, policy, Slot.retriggerExtended, decide_eq_true_eq]
  by_cases room : (x.record h).preCount + ((x.record h).postCount + x.config.post) ≤ x.config.size
  · simp only [room, Nat.not_lt.mpr room, decide_false, Bool.or_false, if_true, if_false]
    rfl
  · simp only [room, Nat.lt_of_not_le room, decide_true, Bool.or_true, if_true, if_false]
    rfl

/-- The record of a half FULL under a capture number (R84). -/
def CaptureRecord.listed (r : CaptureRecord) (number : BitVec 16) : CaptureRecord :=
  { r with state := .full, captureNumber := number }

/-! ## The slot table and the index after each operation -/

theorem takeHalf_slots (i : Fin 8) (h : Half) (s : State) :
    (takeHalf i h s).slots = (s.setSlot i ((s.slot i).taken h)).slots := by
  simp only [takeHalf, markDirty_keeps]
  rfl

theorem armHalf_slots (i : Fin 8) (h : Half) (s : State) :
    (armHalf i h s).slots = (s.setSlot i ((s.slot i).taken h)).slots := by
  simp only [armHalf, markQuietly_keeps]
  rfl

theorem slot_removeIndex (i j : Fin 8) (h : Half) (s : State) : (removeIndex i h s).slot j = s.slot j := rfl

theorem reclaim_slots (i : Fin 8) (h : Half) (s : State) :
    (reclaim i h s).slots = (s.setSlot i ((s.slot i).taken h)).slots := by
  simp only [reclaim, raise_keeps, takeHalf_slots, slot_removeIndex]
  rfl

theorem armReclaim_slots (i : Fin 8) (h : Half) (s : State) :
    (armReclaim i h s).slots = (s.setSlot i ((s.slot i).taken h)).slots := by
  simp only [armReclaim, raise_keeps, armHalf_slots, slot_removeIndex]
  rfl

theorem reclaim_capture (i : Fin 8) (h : Half) (s : State) :
    (reclaim i h s).capture = { s.capture with index := s.capture.index.filter fun e => decide (e ≠ (i, h)) } := by
  simp [reclaim, removeIndex]

theorem armReclaim_capture (i : Fin 8) (h : Half) (s : State) :
    (armReclaim i h s).capture = { s.capture with index := s.capture.index.filter fun e => decide (e ≠ (i, h)) } := by
  simp [armReclaim, removeIndex]

theorem emptyHalf_slots (i : Fin 8) (h : Half) (s : State) :
    (emptyHalf i h s).slots = (s.setRecord i h (CaptureRecord.cleared .empty)).slots := by
  simp [emptyHalf]

theorem toRest_slots (i : Fin 8) (state : SlotState) (s : State) :
    (toRest i state s).slots = (s.setSlot i ((s.slot i).rested state)).slots := rfl

@[simp] theorem slot_toRest (i : Fin 8) (state : SlotState) (s : State) : (toRest i state s).slot i = (s.slot i).rested state := by
  simp [toRest, Slot.rested]

@[simp] theorem toRest_setSlot (i : Fin 8) (state : SlotState) (s : State) (x : Slot) :
    (toRest i state s).setSlot i x = s.setSlot i x :=
  setSlot_setSlot s i ((s.slot i).rested state) x

/-- A half written once the slot is at rest. -/
theorem toRest_setRecord (i : Fin 8) (h : Half) (state : SlotState) (r : CaptureRecord) (s : State) :
    (toRest i state s).setRecord i h r = s.setSlot i ((s.slot i).updated h r (SlotLive.cleared state)) := by
  rw [State.setRecord, slot_toRest, toRest_setSlot]
  cases h <;> rfl

theorem listFull_slots (i : Fin 8) (h : Half) (s : State) :
    (listFull i h s).slots = (s.setRecord i h ((s.record i h).listed s.capture.counter)).slots := by
  simp only [listFull, raise_keeps]
  rfl

theorem listFull_capture (i : Fin 8) (h : Half) (s : State) :
    (listFull i h s).capture =
      { s.capture with counter := s.capture.counter + 1, index := s.capture.index ++ [(i, h)] } := by
  simp only [listFull, raise_keeps]

end Sys2Proof.Machine
end

section
/-! SUPPORT. What a command can do to the slots, their halves and the capture index: a chain of moves, each one change of one slot or
one entry of the index, said once for every operation and every command. The invariants of slots and halves rest on the moves alone. -/

namespace Sys2Proof.Machine

/-! ## The moves -/

/-- The slot records on no half. -/
def Slot.resting (x : Slot) : Prop :=
  x.recording → x.live.active = none

theorem resting_of_state {x : Slot} (h : x.live.state = .idle ∨ x.live.state = .stalled) : x.resting := by
  rintro (armed | post) <;> rcases h with idle | stalled <;> simp_all

theorem rested_resting (x : Slot) (state : SlotState) : (x.rested state).resting :=
  fun _ => rfl

/-- What a slot can do without the index: a sample stored or lost, a gap, a trigger, EARLY, the end of a capture, a half given back or
taken, another state of rest, another configuration (R53 to R75). -/
inductive SlotMove (x : Slot) : Slot → Prop
  | stores {h : Half} (t : Tick) (records : x.recording) (active : x.live.active = some h)
      (short : x.live.state = .post → (x.record h).postCount + 1 ≠ x.live.postTarget) : SlotMove x (x.stored h t)
  | notes {h : Half} (lost gaps : Nat) (active : x.live.active = some h) :
      SlotMove x (x.setRecord h { x.record h with lost := lost, gaps := gaps })
  | triggers {h : Half} (source : Nat) (t : Tick) (armed : x.live.state = .armed) (active : x.live.active = some h) :
      SlotMove x (x.triggered h source t)
  | retriggers {h : Half} (post : x.live.state = .post) (active : x.live.active = some h) : SlotMove x (x.retriggered h)
  | raisesEarly {h : Half} (post : x.live.state = .post) (active : x.live.active = some h) :
      SlotMove x (x.updated h (x.record h) { x.live with earlyRaised := true })
  | completes {h : Half} (t : Tick) (post : x.live.state = .post) (active : x.live.active = some h)
      (reached : (x.record h).postCount + 1 = x.live.postTarget) : SlotMove x (((x.stored h t).sealed h).rested .stalled)
  | truncates {h : Half} (post : x.live.state = .post) (active : x.live.active = some h) :
      SlotMove x (((x.setRecord h (x.truncatedRecord h)).sealed h).rested .idle)
  | disarms {h : Half} (armed : x.live.state = .armed) (active : x.live.active = some h) :
      SlotMove x (x.updated h (CaptureRecord.cleared .empty) (SlotLive.cleared .idle))
  | takes {h : Half} (rest : x.resting) (empty : (x.record h).state = .empty) : SlotMove x (x.taken h)
  | rests {state : SlotState} (rest : x.resting) (quiet : state = .idle ∨ state = .stalled) : SlotMove x (x.rested state)
  | configures (c : SlotConfig) (unlocked : x.locked = false) (valid : c.valid = true) : SlotMove x { x with config := c }

/-- What a command can do in one move: slots alone, or one slot with the index (R84, R87, R92), or RESET-CAPTURE and power-on reset,
which clear both. -/
inductive CaptureMove (s t : State) : Prop
  | slots (moves : ∀ i, t.slot i = s.slot i ∨ SlotMove (s.slot i) (t.slot i)) (index : t.capture.index = s.capture.index)
  | reclaims (i : Fin 8) (h : Half) (rest : (s.slot i).resting) (slots : t.slots = (s.setSlot i ((s.slot i).taken h)).slots)
      (index : t.capture.index = s.capture.index.filter fun e => decide (e ≠ (i, h)))
  | releases (i : Fin 8) (h : Half) (full : (s.record i h).state = .full)
      (slots : t.slots = (s.setRecord i h (CaptureRecord.cleared .empty)).slots)
      (index : t.capture.index = s.capture.index.filter fun e => decide (e ≠ (i, h)))
  | lists (i : Fin 8) (h : Half) (number : BitVec 16) (seals : (s.record i h).state = .sealing)
      (slots : t.slots = (s.setRecord i h ((s.record i h).listed number)).slots)
      (index : t.capture.index = s.capture.index ++ [(i, h)])
  | clears (config : ∀ i, (t.slot i).config = (s.slot i).config ∨ (t.slot i).config = SlotConfig.reset)
      (cleared : ∀ i, t.slot i = (t.slot i).resetCapture) (index : t.capture.index = [])

/-- Any number of moves, one after the other. -/
def CaptureMoves : State → State → Prop :=
  Relation.ReflTransGen CaptureMove

/-- What every move keeps, every chain of moves keeps. -/
theorem CaptureMoves.keep {p : State → Prop} (move : ∀ s t, CaptureMove s t → p s → p t) {s t : State} (m : CaptureMoves s t)
    (h : p s) : p t := by
  induction m with
  | refl => exact h
  | tail _ one ih => exact move _ _ one ih

theorem CaptureMoves.trans {s t u : State} (m : CaptureMoves s t) (n : CaptureMoves t u) : CaptureMoves s u :=
  Relation.ReflTransGen.trans m n

theorem CaptureMove.one {s t : State} (m : CaptureMove s t) : CaptureMoves s t :=
  .single m

/-- An operation that touches neither slots nor index. -/
theorem captureMoves_of_eq {s t : State} (same : t.slots = s.slots ∧ t.capture.index = s.capture.index) : CaptureMoves s t :=
  CaptureMove.one (.slots (fun i => .inl (slot_congr same.1 i)) same.2)

theorem CaptureMoves.refl (s : State) : CaptureMoves s s :=
  Relation.ReflTransGen.refl

theorem CaptureMoves.raised {s t : State} {c : Fin 8} {n : Fin 32} (m : CaptureMoves s t) : CaptureMoves s (raise c n t) :=
  m.trans (captureMoves_of_eq (by simp))

/-- One slot moves by itself. -/
theorem captureMoves_of_slot {s t : State} {i : Fin 8} {x : Slot} (m : SlotMove (s.slot i) x)
    (slots : t.slots = (s.setSlot i x).slots) (index : t.capture.index = s.capture.index) : CaptureMoves s t := by
  obtain ⟨here, others⟩ := slot_of_slots slots
  refine CaptureMove.one (.slots (fun j => ?_) index)
  by_cases e : j = i
  · subst e
    exact .inr (here ▸ m)
  · exact .inl (others j e)

/-! ## Halves taken, given back and listed -/

theorem captureMoves_armHalf {s : State} {i : Fin 8} {h : Half} (rest : (s.slot i).resting)
    (empty : (s.record i h).state = .empty) : CaptureMoves s (armHalf i h s) :=
  captureMoves_of_slot (.takes rest empty) (armHalf_slots i h s) (by simp)

theorem captureMoves_reclaim {s : State} {i : Fin 8} (h : Half) (rest : (s.slot i).resting) : CaptureMoves s (reclaim i h s) :=
  CaptureMove.one (.reclaims i h rest (reclaim_slots i h s) (by rw [reclaim_capture]))

theorem captureMoves_armReclaim {s : State} {i : Fin 8} (h : Half) (rest : (s.slot i).resting) :
    CaptureMoves s (armReclaim i h s) :=
  CaptureMove.one (.reclaims i h rest (armReclaim_slots i h s) (by rw [armReclaim_capture]))

theorem captureMoves_toRest {s : State} {i : Fin 8} {state : SlotState} (rest : (s.slot i).resting)
    (quiet : state = .idle ∨ state = .stalled) : CaptureMoves s (toRest i state s) :=
  captureMoves_of_slot (.rests rest quiet) (toRest_slots i state s) rfl

theorem captureMoves_listFull {s : State} {i : Fin 8} {h : Half} (seals : (s.record i h).state = .sealing) :
    CaptureMoves s (listFull i h s) :=
  CaptureMove.one (.lists i h _ seals (listFull_slots i h s) (by rw [listFull_capture]))

theorem captureMoves_halfFull {s : State} {i : Fin 8} {h : Half} (seals : (s.record i h).state = .sealing) :
    CaptureMoves s (halfFull i h s) := by
  unfold halfFull
  split
  · rename_i stalled
    refine (captureMoves_listFull seals).trans (captureMoves_reclaim h (resting_of_state (.inr ?_)))
    rw [listFull_live, stalled.1]
  · exact captureMoves_listFull seals

theorem captureMoves_sealIfWritten (i : Fin 8) (h : Half) (s : State) : CaptureMoves s (sealIfWritten i h s) := by
  unfold sealIfWritten
  split
  · rename_i seals
    exact captureMoves_halfFull seals.1
  · exact .refl s

theorem captureMoves_sealAtEnd (i : Fin 8) (h : Half) (s : State) : CaptureMoves s (sealAtEnd i h s) := by
  unfold sealAtEnd
  split
  · rename_i seals
    exact captureMoves_halfFull seals.1
  · exact .refl s

/-! ## Completion (R71, R72) -/

/-- The next half is taken as by a slot that came to rest in STALLED first: what it held as live fields is overwritten. -/
theorem captureMoves_nextHalf (i : Fin 8) (other : Half) (s : State) :
    CaptureMoves (toRest i .stalled s) (nextHalf i other s) := by
  have taken : (s.setSlot i ((s.slot i).taken other)).slots =
      ((toRest i .stalled s).setSlot i (((toRest i .stalled s).slot i).taken other)).slots := by
    rw [slot_toRest, taken_rested, toRest_setSlot]
  have rest : ((toRest i .stalled s).slot i).resting := by
    rw [slot_toRest]
    exact rested_resting _ _
  unfold nextHalf
  split
  · have empty : (s.record i other).state = .empty := by assumption
    refine captureMoves_of_slot (.takes rest ?_) ((takeHalf_slots i other s).trans taken) (by simp)
    rwa [slot_toRest, record_rested]
  · exact CaptureMove.one (.reclaims i other rest ((reclaim_slots i other s).trans taken) (by simp [reclaim_capture]))
  all_goals exact .refl _

theorem captureMoves_truncate {s : State} {i : Fin 8} {h : Half} (post : (s.slot i).live.state = .post)
    (active : (s.slot i).live.active = some h) : CaptureMoves s (truncate i h s) := by
  have ended := captureMoves_of_slot
    (t := toRest i .idle (s.setSlot i (((s.slot i).setRecord h ((s.slot i).truncatedRecord h)).sealed h)))
    (.truncates post active) (by rw [toRest_slots, slot_setSlot, setSlot_setSlot]) rfl
  exact ended.trans (captureMoves_sealIfWritten i h _)

/-! ## A slot's sample, triggers and gaps -/

theorem captureMoves_loseSample {s : State} {i : Fin 8} {h : Half} (active : (s.slot i).live.active = some h) :
    CaptureMoves s (loseSample i h s) :=
  CaptureMoves.raised (captureMoves_of_slot (.notes _ ((s.slot i).record h).gaps active) rfl rfl)

/-- The sample reaches the slot in a state `u` that has its entry queued. -/
theorem captureMoves_afterPost {s u : State} {i : Fin 8} {h : Half} (t : Tick) (post : (s.slot i).live.state = .post)
    (active : (s.slot i).live.active = some h) (same : u.slots = s.slots ∧ u.capture.index = s.capture.index) :
    CaptureMoves s (afterPost i h (u.setSlot i ((s.slot i).stored h t))) := by
  have slots := setSlot_slots_congr same.1 i ((s.slot i).stored h t)
  have short : (s.record i h).postCount + 1 ≠ (s.slot i).live.postTarget →
      CaptureMoves s (u.setSlot i ((s.slot i).stored h t)) := fun n =>
    captureMoves_of_slot (.stores t (.inr post) active fun _ => n) slots same.2
  unfold afterPost
  simp only [State.record, slot_setSlot, record_stored, storedRecord_postCount h t post, live_stored]
  split
  · rename_i reached
    have ended : CaptureMoves s
        (toRest i .stalled (u.setSlot i (((s.slot i).stored h t).sealed h))) :=
      captureMoves_of_slot (.completes t post active reached)
        (by rw [toRest_slots, slot_setSlot, setSlot_setSlot]; exact setSlot_slots_congr same.1 i _) same.2
    refine ended.trans ?_
    simp only [complete, slot_setSlot, setSlot_setSlot]
    exact captureMoves_nextHalf _ _ _
  · rename_i n
    split
    · refine CaptureMoves.raised ((short n).trans (captureMoves_of_slot (i := i) (.raisesEarly (h := h) ?_ ?_)
        (by rw [← withLive_eq_updated]; simp only [State.setLive, slot_setSlot, live_stored]) rfl))
      · simpa [Slot.storedLive] using post
      · simpa [Slot.storedLive] using active
    · exact short n

theorem captureMoves_storeSample {s : State} {i : Fin 8} {h : Half} (v : Sample) (t : Tick) (records : (s.slot i).recording)
    (active : (s.slot i).live.active = some h) : CaptureMoves s (storeSample i h v t s) := by
  unfold storeSample
  dsimp only
  split
  · rename_i post
    exact captureMoves_afterPost t post active (by simp)
  · rename_i armed
    exact captureMoves_of_slot (.stores t records active fun post => absurd post armed) (setSlot_slots_congr (by simp) i _) (by simp)

theorem captureMoves_slotSample (i : Fin 8) (v : Sample) (t : Tick) (s : State) : CaptureMoves s (slotSample i v t s) := by
  have receives : ∀ h, (s.slot i).recording → (s.slot i).live.active = some h → CaptureMoves s
      (if Config.queueCapacity ≤ s.queue.length then loseSample i h s else storeSample i h v t s) := fun h records active => by
    split
    · exact captureMoves_loseSample active
    · exact captureMoves_storeSample v t records active
  unfold slotSample
  split
  · rename_i armed active
    exact receives _ (.inl armed) active
  · rename_i post active
    exact receives _ (.inr post) active
  all_goals exact .refl s

theorem captureMoves_trigger (i : Fin 8) (source : Nat) (t : Tick) (s : State) : CaptureMoves s (trigger i source t s).1 := by
  unfold trigger
  split
  · exact .refl s
  · exact (CaptureMoves.refl s).raised
  · rename_i armed
    split
    · exact captureMoves_of_slot (.triggers source t armed ‹_›) rfl rfl
    · exact .refl s
  · rename_i post
    split
    · exact captureMoves_of_slot (.retriggers post ‹_›) rfl rfl
    · exact .refl s

theorem captureMoves_countGap (i : Fin 8) (s : State) : CaptureMoves s (countGap i s) := by
  unfold countGap
  split
  · exact captureMoves_of_slot (.notes ((s.slot i).record _).lost _ ‹_›) rfl rfl
  · exact .refl s

/-! ## Watches, turns and frames -/

theorem captureMoves_watchSample (w : Fin 32) (v : Sample) (t : Tick) (s : State) : CaptureMoves s (watchSample w v t s) := by
  have fires : ∀ u : State, CaptureMoves u (fireWatch w t u) := fun u => by
    have asks : CaptureMoves u (requestTrigger w t u).1 := by
      unfold requestTrigger
      split
      · exact captureMoves_trigger _ _ _ u
      · exact .refl u
    exact CaptureMoves.raised (asks.trans (captureMoves_of_eq ⟨rfl, rfl⟩))
  have moved : CaptureMoves s (s.setWatch w ((s.watch w).onSample v t).1) := captureMoves_of_eq ⟨rfl, rfl⟩
  unfold watchSample
  dsimp only
  split
  · exact moved.trans (fires _)
  · exact moved

theorem captureMoves_takeTurn (s : State) : CaptureMoves s (takeTurn s) := by
  unfold takeTurn
  split
  · exact .refl s
  · rename_i x _
    split
    · exact captureMoves_of_eq ⟨rfl, rfl⟩
    · have moved : CaptureMoves s { s with handing := x.next } := captureMoves_of_eq ⟨rfl, rfl⟩
      split
      · unfold handToWatch
        split
        · exact moved.trans (captureMoves_watchSample _ _ _ _)
        · exact moved
      · unfold handToSlot
        split
        · exact moved.trans (captureMoves_slotSample _ _ _ _)
        · exact moved

theorem captureMoves_finishHanding (s : State) : CaptureMoves s (finishHanding s) := by
  have turns : ∀ n (u : State), CaptureMoves u (takeTurns n u) := fun n => by
    induction n with
    | zero => exact .refl
    | succ n ih => exact fun u => (captureMoves_takeTurn u).trans (ih _)
  unfold finishHanding
  split
  · exact .refl s
  · exact (turns _ s).trans (captureMoves_of_eq ⟨rfl, rfl⟩)

theorem captureMoves_takeFrame (e : Fin 64) (f : Frame) (s : State) : CaptureMoves s (takeFrame e f s) := by
  have gap : ∀ (b : Option (Fin 8)) (u : State), CaptureMoves u (takeGap e b u) := fun b u => by
    have restarted : CaptureMoves u (restartWatches e u) := captureMoves_of_eq (by simp)
    unfold takeGap
    split
    · exact restarted.trans (captureMoves_countGap _ _)
    · exact restarted
  have took : CaptureMoves s (s.setChannel e ((s.channel e).took (sampleSequence f) (sampleTimestamp f))) :=
    captureMoves_of_eq ⟨rfl, rfl⟩
  unfold takeFrame
  dsimp only
  split
  · exact (took.trans (gap _ _)).trans (captureMoves_of_eq ⟨rfl, rfl⟩)
  · exact took.trans (captureMoves_of_eq ⟨rfl, rfl⟩)

/-! ## Symbols -/

theorem captureMoves_routeU (f : Frame) (s : State) : CaptureMoves s (routeU f s) := by
  have forwarded : CaptureMoves s (forwardU2D f s) := captureMoves_of_eq (by simp)
  unfold routeU offerToMap
  dsimp only
  split
  · split
    · exact forwarded.trans (captureMoves_takeFrame _ f _)
    · exact forwarded
  · exact forwarded

theorem captureMoves_frameEnd (p : Port) (f : RxFrame) (s : State) : CaptureMoves s (frameEnd p f s) := by
  have closed : CaptureMoves s (s.setPort p { s.port p with frame := none }) := captureMoves_of_eq (by simp)
  unfold frameEnd
  dsimp only
  split
  · exact closed
  · cases p with
    | u => exact closed.trans (captureMoves_routeU f.octets _)
    | d => exact closed.trans (captureMoves_of_eq (by simp [route]))

theorem captureMoves_upSymbol (p : Port) (symbol : Symbol) (s : State) : CaptureMoves s (upSymbol p symbol s) := by
  have assembles : ∀ u, CaptureMoves u (assemble p symbol u) := fun u => by
    unfold assemble
    split
    case h_4 f _ => exact captureMoves_frameEnd p f u
    all_goals exact captureMoves_of_eq (by simp)
  unfold upSymbol
  dsimp only
  split
  · exact captureMoves_of_eq (by simp)
  · exact CaptureMoves.trans (captureMoves_of_eq (by simp)) (assembles _)

/-- A symbol reaches the slots only by the END of a frame. -/
theorem captureMoves_receiveSymbol (p : Port) (symbol : Symbol) (s : State) : CaptureMoves s (receiveSymbol p symbol s) := by
  have settled : CaptureMoves s (settleEarlier p symbol s) := by
    unfold settleEarlier
    split
    · exact captureMoves_finishHanding s
    · exact .refl s
  unfold receiveSymbol
  split
  case h_3 => exact settled.trans (captureMoves_upSymbol p symbol _)
  all_goals exact captureMoves_of_eq (by simp)

/-! ## WRITE to the slot table (R54, R55) -/

/-- The slot table an accepted WRITE leaves. -/
theorem slot_writtenSlots {r : Request} {s t : State} (h : t.slots = writtenSlots r s) (i : Fin 8) :
    t.slot i = if writesSlot r i then { s.slot i with config := writtenSlot r s i } else s.slot i := by
  simp [State.slot, h, writtenSlots]

/-- The checks of R53 and R54 on every slot that the WRITE covers a configuration word of. -/
def slotsPass (r : Request) (s : State) : Prop :=
  ∀ i, writesSlot r i = true → (writtenSlot r s i).valid = true

theorem slotsPass_iff (r : Request) (s : State) :
    ((List.finRange 8).all fun i => !writesSlot r i || (writtenSlot r s i).valid) = true ↔ slotsPass r s := by
  simp only [slotsPass, all_finRange, Bool.or_eq_true, Bool.not_eq_true', ← Bool.not_eq_true, imp_iff_not_or]

theorem writeSlots_of_badValue {r : Request} {s : State} (h : ¬ slotsPass r s) : writeSlots r s = (s, .answer .badValue []) := by
  rw [← slotsPass_iff] at h
  simp only [writeSlots, h, Bool.not_false, if_true, refusedWith]

/-- Past those checks, a slot at work or holding a capture locks the table. -/
theorem writeSlots_of_locked {r : Request} {s : State} (passed : slotsPass r s) {i : Fin 8} (written : writesSlot r i = true)
    (locked : (s.slot i).locked = true) : writeSlots r s = (s, .answer .locked []) := by
  have some_locked : ((List.finRange 8).any fun i => writesSlot r i && (s.slot i).locked) = true :=
    (any_finRange _).mpr ⟨i, by simp [written, locked]⟩
  rw [← slotsPass_iff] at passed
  simp only [writeSlots, passed, some_locked, Bool.not_true, Bool.false_eq_true, if_false, if_true, refusedWith]

theorem writeSlots_of_unlocked {r : Request} {s : State} (passed : slotsPass r s)
    (unlocked : ∀ i, writesSlot r i = true → (s.slot i).locked = false) :
    writeSlots r s = ({ s with slots := writtenSlots r s }, .answer .ok []) := by
  have none_locked : ((List.finRange 8).any fun i => writesSlot r i && (s.slot i).locked) = false := by
    rw [← Bool.not_eq_true, any_finRange]
    rintro ⟨i, h⟩
    obtain ⟨written, locked⟩ := Bool.and_eq_true_iff.mp h
    simp [unlocked i written] at locked
  rw [← slotsPass_iff] at passed
  simp only [writeSlots, passed, none_locked, Bool.not_true, Bool.false_eq_true, if_false, acceptedWith]

theorem captureMoves_writeSlots (r : Request) (s : State) : CaptureMoves s (writeSlots r s).1 := by
  by_cases passed : slotsPass r s
  · by_cases unlocked : ∀ i, writesSlot r i = true → (s.slot i).locked = false
    · rw [writeSlots_of_unlocked passed unlocked]
      refine CaptureMove.one (.slots (fun i => ?_) rfl)
      rw [slot_writtenSlots (r := r) rfl]
      split
      · exact .inr (.configures _ (unlocked i ‹_›) (passed i ‹_›))
      · exact .inl rfl
    · push Not at unlocked
      obtain ⟨i, written, locked⟩ := unlocked
      rw [writeSlots_of_locked passed written (by simpa using locked)]
      exact .refl s
  · rw [writeSlots_of_badValue passed]
    exact .refl s

theorem captureMoves_runWrite (i : Fin 4) (r : Request) (s : State) : CaptureMoves s (runWrite i r s).1 := by
  unfold runWrite
  split
  · exact .refl s
  · unfold writeOwner
    split
    case h_4 => exact captureMoves_writeSlots r s
    case h_7 => exact .refl s
    all_goals refine captureMoves_of_eq ?_
    · unfold writeControl writeSettings writeCountSettings setCountTable writeMode
      (repeat' split) <;> simp [refusedWith, acceptedWith]
    · unfold writeMap
      (repeat' split) <;> simp [refusedWith, acceptedWith]
    · unfold writeWatches
      (repeat' split) <;> simp [refusedWith, acceptedWith]
    · unfold writeNotice
      split <;> simp [refusedWith, acceptedWith]
    · unfold writeTiming
      (repeat' split) <;> simp [refusedWith, acceptedWith]

/-! ## Commands on slots -/

/-- ARM-SLOT finds the slot IDLE or refuses (R58). -/
theorem idle_of_armChecks {i : Fin 8} {s : State} (h : armChecks i s = none) : (s.slot i).live.state = .idle := by
  unfold armChecks at h
  split at h
  · exact absurd h (by simp)
  · simpa using ‹¬ (s.slot i).live.state ≠ .idle›

theorem captureMoves_armTakes {s : State} {i : Fin 8} (rest : (s.slot i).resting) : CaptureMoves s (armTakes i s) := by
  unfold armTakes
  split
  · exact captureMoves_armHalf rest ‹_›
  · split
    · exact captureMoves_armHalf rest ‹_›
    · split
      · exact captureMoves_armReclaim _ rest
      all_goals exact captureMoves_toRest rest (.inr rfl)

theorem captureMoves_armSlot (i : Fin 8) (s : State) : CaptureMoves s (armSlot i s).1 := by
  unfold armSlot
  split
  · exact .refl s
  · rename_i passed
    have withdrawn : CaptureMoves s (withdrawHold s) := captureMoves_of_eq (by simp)
    exact withdrawn.trans (captureMoves_armTakes (resting_of_state (.inl (idle_of_armChecks (s := s) passed))))

theorem captureMoves_disarmSlot (i : Fin 8) (s : State) : CaptureMoves s (disarmSlot i s).1 := by
  unfold disarmSlot
  split
  · exact .refl s
  · rename_i h armed active
    refine captureMoves_of_slot (.disarms armed active) ?_ (by simp [acceptedWith])
    simp only [acceptedWith, emptyHalf_slots, toRest_setRecord]
  · exact captureMoves_truncate ‹_› ‹_›
  · exact captureMoves_toRest (fun _ => ‹_›) (.inl rfl)
  · exact captureMoves_toRest (fun _ => ‹_›) (.inl rfl)
  · exact captureMoves_toRest (resting_of_state (.inr ‹_›)) (.inl rfl)

theorem captureMoves_releaseHalf (i : Fin 8) (h : Half) (s : State) : CaptureMoves s (releaseHalf i h s).1 := by
  unfold releaseHalf
  split
  · rename_i full
    unfold releaseFull
    split
    · rename_i stalled
      refine CaptureMove.one (.reclaims i h (resting_of_state (.inr stalled)) ?_ (by simp [acceptedWith, removeIndex]))
      simp only [acceptedWith, takeHalf_slots, slot_removeIndex]
      rfl
    · refine CaptureMove.one (.releases i h full ?_ (by simp [acceptedWith, removeIndex]))
      simp only [acceptedWith, emptyHalf_slots]
      rfl
  · exact .refl s

theorem captureMoves_resetCapture (s : State) : CaptureMoves s (resetCapture s).1 := by
  have tables : (resetCapture s).1.slots = (clearCapture s).slots ∧ (resetCapture s).1.capture.index = [] := by
    unfold resetCapture
    split <;> simp [acceptedWith, clearCapture]
  have cleared : ∀ i, (resetCapture s).1.slot i = (s.slot i).resetCapture := fun i => by
    rw [slot_congr tables.1, clearCapture_slot]
  exact CaptureMove.one (.clears (fun i => .inl (by rw [cleared]; rfl)) (fun i => by rw [cleared]; rfl) tables.2)

/-! ## Commands that leave slots and index as they are -/

@[simp] theorem runRead_captures (i : Fin 4) (r : Request) (s : State) :
    (runRead i r s).1.slots = s.slots ∧ (runRead i r s).1.capture = s.capture := by
  unfold runRead
  split <;> exact ⟨rfl, rfl⟩

@[simp] theorem runFetch_captures (i : Fin 4) (r : Request) (s : State) :
    (runFetch i r s).1.slots = s.slots ∧ (runFetch i r s).1.capture = s.capture := by
  unfold runFetch
  split <;> exact ⟨rfl, rfl⟩

@[simp] theorem enableWatch_captures (w : Fin 32) (s : State) :
    (enableWatch w s).1.slots = s.slots ∧ (enableWatch w s).1.capture = s.capture := by
  unfold enableWatch
  (repeat' split) <;> exact ⟨rfl, rfl⟩

@[simp] theorem disableWatch_captures (w : Fin 32) (s : State) :
    (disableWatch w s).1.slots = s.slots ∧ (disableWatch w s).1.capture = s.capture := ⟨rfl, rfl⟩

@[simp] theorem setGate_captures (isOpen : Bool) (s : State) :
    (setGate isOpen s).1.slots = s.slots ∧ (setGate isOpen s).1.capture.index = s.capture.index := ⟨rfl, rfl⟩

@[simp] theorem ackNotice_captures (c : Fin 8) (mask : BitVec 32) (s : State) :
    (ackNotice c mask s).1.slots = s.slots ∧ (ackNotice c mask s).1.capture = s.capture := by
  simp [ackNotice, acceptedWith]

@[simp] theorem clearFaultRecord_captures (s : State) :
    (clearFaultRecord s).1.slots = s.slots ∧ (clearFaultRecord s).1.capture = s.capture := ⟨rfl, rfl⟩

@[simp] theorem memStart_captures (s : State) : (memStart s).1.slots = s.slots ∧ (memStart s).1.capture = s.capture := by
  unfold memStart
  split <;> exact ⟨rfl, rfl⟩

@[simp] theorem memHold_captures (s : State) : (memHold s).1.slots = s.slots ∧ (memHold s).1.capture = s.capture := by
  unfold memHold
  (repeat' split) <;> simp [refusedWith, acceptedWith]

@[simp] theorem realign_captures (p : Port) (s : State) :
    (realign p s).1.slots = s.slots ∧ (realign p s).1.capture = s.capture := by
  unfold realign
  dsimp only
  split <;> simp [acceptedWith]

/-! ## Every command -/

theorem captureMoves_execute {s : State} (form : Request → Bool) (run : Execution)
    (owner : ∀ i r, CaptureMoves s (run i r s).1) : CaptureMoves s (execute form run s) := by
  rcases execute_cases form run s with same | ⟨i, t, -, -, ⟨status, e⟩ | ⟨-, e⟩⟩
  · rw [same]
    exact .refl s
  · rw [e]
    exact captureMoves_of_eq (by simp)
  · rw [e]
    exact (owner i t.request).trans (captureMoves_of_eq (by simp))

/-- A COMMAND row with an argument. -/
theorem captureMoves_executeArg {α : Type} {s : State} (form : Request → Bool) (take : MgmtWord → Option α)
    (run : α → State → State × Reply) (owner : ∀ a, CaptureMoves s (run a s).1) :
    CaptureMoves s (execute form (withArg take run) s) := by
  refine captureMoves_execute form _ fun i r => ?_
  unfold withArg
  split
  · exact owner _
  · exact .refl s

theorem captureMoves_endBurst (entries : List QueueEntry) (s : State) : CaptureMoves s (endBurst entries s) := by
  have written : CaptureMoves s (burstWritten entries s) := captureMoves_of_eq (by simp)
  unfold endBurst
  split
  · exact written.trans (captureMoves_of_eq (by simp))
  · rename_i e _
    exact (written.trans (captureMoves_sealAtEnd e.slot e.half _)).trans (captureMoves_of_eq (by simp))

theorem captureMoves_exec {s t : State} (c : Instr) (h : exec c s = .next t) : CaptureMoves s t := by
  cases c with
  | powerOnReset straps =>
    cases h
    have reset : ∀ i, (State.powerOn straps s.free s.pending).slot i = Slot.reset := fun i => by
      simp [State.powerOn, State.slot]
    exact CaptureMove.one (.clears (fun i => .inr (by rw [reset]; rfl)) (fun i => by rw [reset]; rfl) rfl)
  | tapValue p symbols =>
    cases h
    split
    · exact foldl_inv (CaptureMoves s) _ (fun u y m => m.trans (captureMoves_receiveSymbol p y u)) symbols s (.refl s)
    · exact .refl s
  | lockedSymbol | receiverUp | tapProvedFalse | oversizeFrame | lossOfAlignment | frameCompletedD =>
    cases h
    split
    · exact captureMoves_receiveSymbol _ _ s
    · exact .refl s
  | symbolReceived p symbol =>
    cases h
    exact captureMoves_receiveSymbol p symbol s
  | frameCompletedU =>
    cases h
    split
    · exact (captureMoves_receiveSymbol .u .endFrame s).trans (captureMoves_finishHanding _)
    · exact captureMoves_takeTurn s
  | write | writeChannelMap | writeWatch | writeSlot | writeTimingSet | writeCountTable | writeEnableSet | writeOrderList
  | writeExpressClass | writeCheckMode =>
    cases h
    exact captureMoves_execute _ _ fun i r => captureMoves_runWrite i r s
  | armSlot =>
    cases h
    exact captureMoves_executeArg _ _ _ fun i => captureMoves_armSlot i s
  | disarmSlot =>
    cases h
    exact captureMoves_executeArg _ _ _ fun i => captureMoves_disarmSlot i s
  | forceTrigger =>
    cases h
    exact captureMoves_executeArg _ _ _ fun i => captureMoves_trigger i 32 0 s
  | releaseHalf =>
    cases h
    exact captureMoves_executeArg _ _ _ fun a => captureMoves_releaseHalf a.1 a.2 s
  | resetCapture =>
    cases h
    exact captureMoves_execute _ _ fun _ _ => captureMoves_resetCapture s
  | burstEnd =>
    cases h
    split
    · exact captureMoves_endBurst _ s
    · exact .refl s
  | read | fetch | clearFault | memStart | memHold =>
    cases h
    exact captureMoves_execute _ _ fun _ _ => captureMoves_of_eq (by simp)
  | enableWatch | disableWatch | gate | ackNotice | realign =>
    cases h
    exact captureMoves_executeArg _ _ _ fun _ => captureMoves_of_eq (by simp)
  | pauseEnd | refreshDue | refreshEnd | fetchReadEnd | countTableWriteEnd | initSequenceEnd | closingOperationEnd
  | exitSequenceEnd | holdoffExpiry | dFrameSent | uFrameSent =>
    cases h
    refine captureMoves_of_eq ?_
    (repeat' split) <;> simp

end Sys2Proof.Machine
end

section
/-! SUPPORT. StepKeepsHalvesAndIndex: a slot records on one ACTIVE half or rests on none, and every move keeps that and the capture
index (R56, R57, R81, R86, R87). -/

namespace Sys2Proof.Machine

/-! ## The two ways a slot agrees with its halves -/

/-- A half that is EMPTY has a cleared record (R81). -/
def CaptureRecord.emptyCleared (r : CaptureRecord) : Prop :=
  r.state = .empty → r = CaptureRecord.cleared .empty

/-- The slot records on half h, and the other half is not ACTIVE. -/
structure Slot.RecordsOn (x : Slot) (h : Half) : Prop where
  records : x.recording
  active : x.live.active = some h
  here : (x.record h).state = .active
  other : (x.record h.other).state ≠ .active
  cleared : (x.record h.other).emptyCleared

/-- The slot is at rest with its live fields cleared, and neither half is ACTIVE. -/
structure Slot.AtRest (x : Slot) : Prop where
  rests : ¬ x.recording
  live : x.live = SlotLive.cleared x.live.state
  inactive : ∀ h, (x.record h).state ≠ .active
  cleared : ∀ h, (x.record h).emptyCleared

theorem not_recording_of_rest {x : Slot} (h : x.live.state = .idle ∨ x.live.state = .stalled) : ¬ x.recording := by
  rintro (armed | post) <;> rcases h with idle | stalled <;> simp_all

theorem Slot.RecordsOn.agrees {x : Slot} {h : Half} (a : x.RecordsOn h) : x.activeAgrees := by
  refine ⟨by simp [a.records, a.active], fun n => absurd a.records n, (forall_half h).mpr ⟨⟨?_, ?_⟩, ?_, a.cleared⟩⟩
  · simp [a.here, a.active]
  · simp [a.here]
  · have n : h ≠ h.other := (half_other_ne h).symm
    simp [a.other, a.active, n]

theorem Slot.AtRest.active {x : Slot} (a : x.AtRest) : x.live.active = none := by
  rw [a.live]
  rfl

theorem Slot.AtRest.agrees {x : Slot} (a : x.AtRest) : x.activeAgrees := by
  refine ⟨by simp [a.rests, a.active], fun _ => a.live, fun h => ⟨by simp [a.inactive, a.active], a.cleared h⟩⟩

/-- A slot agrees with its halves by recording on one of them or by resting on none. -/
theorem activeAgrees_iff (x : Slot) : x.activeAgrees ↔ (∃ h, x.RecordsOn h) ∨ x.AtRest := by
  refine ⟨fun ⟨records, live, halves⟩ => ?_, ?_⟩
  · cases active : x.live.active with
    | some h =>
      have n : h ≠ h.other := (half_other_ne h).symm
      exact .inl ⟨h, records.mpr (by simp [active]), active, (halves h).1.mpr active,
        fun k => n (Option.some.inj (active.symm.trans ((halves h.other).1.mp k))), (halves h.other).2⟩
    | none =>
      have rests : ¬ x.recording := fun k => by simpa [active] using records.mp k
      exact .inr ⟨rests, live rests, fun h k => by simpa [active] using (halves h).1.mp k, fun h => (halves h).2⟩
  · rintro (⟨h, a⟩ | a)
    · exact a.agrees
    · exact a.agrees

/-- The half that the live fields name is the one the slot records on. -/
theorem recordsOn_of_active {x : Slot} {h : Half} (a : x.activeAgrees) (active : x.live.active = some h) : x.RecordsOn h := by
  rcases (activeAgrees_iff x).mp a with ⟨k, records⟩ | rests
  · cases Option.some.inj (records.active.symm.trans active)
    exact records
  · simp [rests.active] at active

theorem atRest_of_resting {x : Slot} (a : x.activeAgrees) (rest : x.resting) : x.AtRest := by
  rcases (activeAgrees_iff x).mp a with ⟨k, records⟩ | rests
  · exact absurd records.active (by simp [rest records.records])
  · exact rests

/-! ## One slot -/

/-- The half recorded on stays ACTIVE, the other as it is. -/
theorem Slot.RecordsOn.updated {x : Slot} {h : Half} {r : CaptureRecord} {l : SlotLive} (a : x.RecordsOn h)
    (records : l.state = .armed ∨ l.state = .post) (active : l.active = some h) (here : r.state = .active) :
    (x.updated h r l).RecordsOn h :=
  ⟨records, active, by simpa using here, by simpa using a.other, by simpa using a.cleared⟩

/-- The half recorded on is given up and the slot comes to rest. -/
theorem Slot.RecordsOn.given_up {x : Slot} {h : Half} {r : CaptureRecord} {state : SlotState} (a : x.RecordsOn h)
    (quiet : state = .idle ∨ state = .stalled) (here : r.state ≠ .active) (cleared : r.emptyCleared) :
    (x.updated h r (SlotLive.cleared state)).AtRest :=
  ⟨not_recording_of_rest quiet, rfl, (forall_half h).mpr (by simpa using ⟨here, a.other⟩),
    (forall_half h).mpr (by simpa using ⟨cleared, a.cleared⟩)⟩

/-- A slot at rest takes a half. -/
theorem Slot.AtRest.taken {x : Slot} (a : x.AtRest) (h : Half) : (x.taken h).RecordsOn h :=
  ⟨.inl rfl, rfl, by simp [Slot.taken, CaptureRecord.cleared], by simpa [Slot.taken] using a.inactive h.other,
    by simpa [Slot.taken] using a.cleared h.other⟩

/-- A half that is not ACTIVE changes beside whatever the slot does. -/
theorem setRecord_keeps_activeAgrees {x : Slot} {h : Half} {r : CaptureRecord} (a : x.activeAgrees)
    (before : (x.record h).state ≠ .active) (after : r.state ≠ .active) (cleared : r.emptyCleared) :
    (x.setRecord h r).activeAgrees := by
  rw [setRecord_eq_updated]
  rcases (activeAgrees_iff x).mp a with ⟨k, records⟩ | rests
  · have other : h = k.other := (half_eq_or_other h k).resolve_left fun e => before (e ▸ records.here)
    subst other
    have here : (x.updated k.other r x.live).record k = x.record k := by
      simpa using record_updated_other x k.other r x.live
    exact Slot.RecordsOn.agrees (h := k) ⟨records.records, records.active, by rw [here]; exact records.here,
      by simpa using after, by simpa using cleared⟩
  · exact Slot.AtRest.agrees ⟨rests.rests, rests.live, (forall_half h).mpr (by simpa using ⟨after, rests.inactive _⟩),
      (forall_half h).mpr (by simpa using ⟨cleared, rests.cleared _⟩)⟩

theorem storedRecord_state (x : Slot) (h : Half) (t : Tick) : (x.storedRecord h t).state = (x.record h).state := by
  unfold Slot.storedRecord
  dsimp only
  (repeat' split) <;> rfl

theorem emptyCleared_of_state {r : CaptureRecord} (h : r.state ≠ .empty) : r.emptyCleared :=
  fun e => absurd e h

theorem activeAgrees_congr {x y : Slot} (a : x.activeAgrees) (live : y.live = x.live) (records : ∀ h, y.record h = x.record h) :
    y.activeAgrees := by
  simpa only [Slot.activeAgrees, Slot.recording, live, records] using a

theorem record_with_config (x : Slot) (c : SlotConfig) (h : Half) : ({ x with config := c } : Slot).record h = x.record h := by
  cases h <;> rfl

theorem slotMove_keeps_activeAgrees {x y : Slot} (m : SlotMove x y) (a : x.activeAgrees) : y.activeAgrees := by
  have goesOn : ∀ {h : Half} (r : CaptureRecord) (l : SlotLive), x.live.active = some h → (l.state = .armed ∨ l.state = .post) →
      l.active = some h → r.state = (x.record h).state → (x.updated h r l).activeAgrees := fun r l active records still same =>
    have on := recordsOn_of_active a active
    (on.updated records still (same.trans on.here)).agrees
  have ends : ∀ {h : Half} (r : CaptureRecord) {state : SlotState}, x.live.active = some h → (state = .idle ∨ state = .stalled) →
      r.state ≠ .active → r.emptyCleared → (x.updated h r (SlotLive.cleared state)).activeAgrees :=
    fun r _ active quiet gone cleared => ((recordsOn_of_active a active).given_up quiet gone cleared).agrees
  have sealing : ∀ (r : CaptureRecord) (time : Tick), (r.ended time).state ≠ .active ∧ (r.ended time).emptyCleared :=
    fun r time => ⟨by simp [CaptureRecord.ended], emptyCleared_of_state (by simp [CaptureRecord.ended])⟩
  cases m with
  | stores t records active short => exact goesOn _ (x.storedLive t) active records active (storedRecord_state x _ t)
  | notes lost gaps active =>
    rw [setRecord_eq_updated]
    exact goesOn _ _ active (recordsOn_of_active a active).records active rfl
  | triggers source t armed active =>
    rw [triggered_eq]
    exact goesOn _ _ active (.inr rfl) active rfl
  | @retriggers h post active =>
    cases policy : x.config.retrigger with
    | ignore =>
      rw [retriggered_of_ignore h policy]
      exact goesOn _ _ active (.inr post) active rfl
    | extend =>
      rw [retriggered_of_extend h policy]
      exact goesOn _ _ active (.inr post) active rfl
  | raisesEarly post active => exact goesOn _ _ active (.inr post) active rfl
  | completes t post active reached =>
    rw [stored_eq, sealed_eq, updated_updated, rested_updated]
    exact ends _ active (.inr rfl) (sealing _ _).1 (sealing _ _).2
  | truncates post active =>
    rw [setRecord_eq_updated, sealed_eq, updated_updated, rested_updated]
    exact ends _ active (.inl rfl) (sealing _ _).1 (sealing _ _).2
  | disarms armed active => exact ends _ active (.inl rfl) (by simp [CaptureRecord.cleared]) fun _ => rfl
  | takes rest empty => exact ((atRest_of_resting a rest).taken _).agrees
  | rests rest quiet =>
    have still := atRest_of_resting a rest
    exact Slot.AtRest.agrees ⟨not_recording_of_rest quiet, rfl, by simpa using still.inactive, by simpa using still.cleared⟩
  | configures c unlocked valid => exact activeAgrees_congr a rfl (record_with_config x c)

/-- No move of a slot by itself makes a half FULL or takes a FULL half. -/
theorem slotMove_keeps_full {x y : Slot} (m : SlotMove x y) (a : x.activeAgrees) (k : Half) :
    (y.record k).state = .full ↔ (x.record k).state = .full := by
  have changes : ∀ {h : Half} (r : CaptureRecord) (l : SlotLive), (x.record h).state ≠ .full → r.state ≠ .full →
      (((x.updated h r l).record k).state = .full ↔ (x.record k).state = .full) := fun {h} r l before after =>
    (forall_half (p := fun k => ((x.updated h r l).record k).state = .full ↔ (x.record k).state = .full) h).mpr
      (by simp [before, after]) k
  have active : ∀ {h}, x.live.active = some h → (x.record h).state ≠ .full := fun e => by
    simp [(recordsOn_of_active a e).here]
  have same : ∀ {h : Half} (r : CaptureRecord) (l : SlotLive), x.live.active = some h → r.state = (x.record h).state →
      (((x.updated h r l).record k).state = .full ↔ (x.record k).state = .full) := fun r l e state =>
    changes r l (active e) (state ▸ active e)
  cases m with
  | stores t records now short => exact same _ _ now (storedRecord_state x _ t)
  | notes lost gaps now =>
    rw [setRecord_eq_updated]
    exact same _ _ now rfl
  | triggers source t armed now =>
    rw [triggered_eq]
    exact same _ _ now rfl
  | @retriggers h post now =>
    cases policy : x.config.retrigger with
    | ignore =>
      rw [retriggered_of_ignore h policy]
      exact same _ _ now rfl
    | extend =>
      rw [retriggered_of_extend h policy]
      exact same _ _ now rfl
  | raisesEarly post now => exact same _ _ now rfl
  | completes t post now reached =>
    rw [stored_eq, sealed_eq, updated_updated, rested_updated]
    exact changes _ _ (active now) (by simp [CaptureRecord.ended])
  | truncates post now =>
    rw [setRecord_eq_updated, sealed_eq, updated_updated, rested_updated]
    exact changes _ _ (active now) (by simp [CaptureRecord.ended])
  | disarms armed now => exact changes _ _ (active now) (by simp [CaptureRecord.cleared])
  | takes rest empty => exact changes _ _ (by simp [empty]) (by simp [CaptureRecord.cleared])
  | rests rest quiet => rw [record_rested]
  | configures c unlocked valid => rw [record_with_config]

/-! ## The table and the index -/

/-- Every slot agrees with its halves. -/
def State.halvesAgree (s : State) : Prop :=
  ∀ i, (s.slot i).activeAgrees

theorem setSlot_halvesAgree {s t : State} {i : Fin 8} {x : Slot} (a : s.halvesAgree) (slots : t.slots = (s.setSlot i x).slots)
    (m : x.activeAgrees) : t.halvesAgree := fun j => by
  obtain ⟨here, others⟩ := slot_of_slots slots
  by_cases e : j = i
  · rw [e, here]
    exact m
  · rw [others j e]
    exact a j

theorem resetCapture_agrees (x : Slot) : x.resetCapture.activeAgrees := by
  have record : ∀ h, x.resetCapture.record h = CaptureRecord.cleared .empty := fun h => by cases h <;> rfl
  exact Slot.AtRest.agrees ⟨not_recording_of_rest (.inl rfl), rfl, fun h => by simp [record, CaptureRecord.cleared],
    fun h _ => record h⟩

theorem captureMove_keeps_halvesAgree {s t : State} (m : CaptureMove s t) (a : s.halvesAgree) : t.halvesAgree := by
  cases m with
  | slots moves index =>
    intro i
    rcases moves i with still | moved
    · rw [still]
      exact a i
    · exact slotMove_keeps_activeAgrees moved (a i)
  | reclaims i h rest slots index =>
    exact setSlot_halvesAgree a slots ((atRest_of_resting (a i) rest).taken h).agrees
  | releases i h full slots index =>
    have before : ((s.slot i).record h).state = .full := full
    exact setSlot_halvesAgree a slots
      (setRecord_keeps_activeAgrees (a i) (by simp [before]) (by simp [CaptureRecord.cleared]) fun _ => rfl)
  | lists i h number seals slots index =>
    have before : ((s.slot i).record h).state = .sealing := seals
    exact setSlot_halvesAgree a slots
      (setRecord_keeps_activeAgrees (a i) (by simp [before]) (by simp [CaptureRecord.listed])
        (emptyCleared_of_state (by simp [CaptureRecord.listed])))
  | clears config cleared index =>
    intro i
    rw [cleared i]
    exact resetCapture_agrees _

/-- The FULL halves after one half of one slot has changed. -/
theorem full_of_setRecord {s t : State} {i : Fin 8} {h : Half} {r : CaptureRecord}
    (records : ∀ j k, t.record j k = if (j, k) = (i, h) then r else s.record j k) (j : Fin 8) (k : Half) :
    (t.record j k).state = .full ↔ if (j, k) = (i, h) then r.state = .full else (s.record j k).state = .full := by
  rw [records]
  split <;> rfl

/-- A half leaves the index as it stops being FULL. -/
theorem indexAgrees_of_removed {s t : State} {i : Fin 8} {h : Half} {r : CaptureRecord} (a : s.indexAgrees)
    (records : ∀ j k, t.record j k = if (j, k) = (i, h) then r else s.record j k) (gone : r.state ≠ .full)
    (index : t.capture.index = s.capture.index.filter fun e => decide (e ≠ (i, h))) : t.indexAgrees := by
  obtain ⟨nodup, lists⟩ := a
  refine ⟨index ▸ nodup.filter _, fun j k => ?_⟩
  rw [full_of_setRecord records, index]
  by_cases e : (j, k) = (i, h)
  · simp [e, gone]
  · simp [e, lists]

/-- A half is listed as it becomes FULL. -/
theorem indexAgrees_of_listed {s t : State} {i : Fin 8} {h : Half} {r : CaptureRecord} (a : s.indexAgrees)
    (records : ∀ j k, t.record j k = if (j, k) = (i, h) then r else s.record j k) (before : (s.record i h).state ≠ .full)
    (full : r.state = .full) (index : t.capture.index = s.capture.index ++ [(i, h)]) : t.indexAgrees := by
  obtain ⟨nodup, lists⟩ := a
  have fresh : (i, h) ∉ s.capture.index := fun k => before ((lists i h).mp k)
  refine ⟨index ▸ nodup.append (List.nodup_singleton _) (by simpa using fresh), fun j k => ?_⟩
  rw [full_of_setRecord records, index]
  by_cases e : (j, k) = (i, h)
  · simp [e, full]
  · simp [e, lists]

/-- Every record after one half of one slot has changed. -/
theorem record_of_updated {s t : State} {i : Fin 8} {h : Half} {r : CaptureRecord} {l : SlotLive}
    (slots : t.slots = (s.setSlot i ((s.slot i).updated h r l)).slots) (j : Fin 8) (k : Half) :
    t.record j k = if (j, k) = (i, h) then r else s.record j k := by
  obtain ⟨here, others⟩ := slot_of_slots slots
  by_cases e : j = i
  · subst e
    simp only [State.record, here, Prod.mk.injEq, true_and]
    rcases half_eq_or_other k h with rfl | rfl
    · simp
    · simp
  · simp only [State.record, others j e, Prod.mk.injEq, e, false_and, if_false]

theorem captureMove_keeps_indexAgrees {s t : State} (m : CaptureMove s t) (halves : s.halvesAgree) (a : s.indexAgrees) :
    t.indexAgrees := by
  cases m with
  | slots moves index =>
    refine ⟨index ▸ a.1, fun i h => ?_⟩
    rw [index, a.2]
    rcases moves i with still | moved
    · simp only [State.record, still]
    · exact (slotMove_keeps_full moved (halves i) h).symm
  | reclaims i h rest slots index =>
    exact indexAgrees_of_removed a (record_of_updated slots) (by simp [CaptureRecord.cleared]) index
  | releases i h full slots index =>
    rw [State.setRecord, setRecord_eq_updated] at slots
    exact indexAgrees_of_removed a (record_of_updated slots) (by simp [CaptureRecord.cleared]) index
  | lists i h number seals slots index =>
    rw [State.setRecord, setRecord_eq_updated] at slots
    exact indexAgrees_of_listed a (record_of_updated slots) (by simp [seals]) rfl index
  | clears config cleared index =>
    refine ⟨by simp [index], fun i h => ?_⟩
    rw [State.record, cleared i]
    cases h <;> simp [index, Slot.resetCapture, Slot.record, CaptureRecord.cleared]

/-- What every move keeps, every step keeps; a step of the microsecond counter touches no slot and no index. -/
theorem captureMoves_step {s t : State} (h : step s = .next t) : CaptureMoves s t := by
  cases pending : s.pending with
  | nil =>
    rw [step_of_empty pending] at h
    cases h
    exact captureMoves_of_eq (by simp)
  | cons c rest =>
    have runs : step s = exec c (s.withQueue rest) := by simp [step, pending]
    have queued : CaptureMoves s (s.withQueue rest) := captureMoves_of_eq ⟨rfl, rfl⟩
    exact queued.trans (captureMoves_exec c (runs ▸ h))

end Sys2Proof.Machine

open Sys2Proof Sys2Proof.Machine

/-- Settles O8: a step is a chain of moves, and every move keeps the halves and the index in agreement. -/
theorem stepKeepsHalvesAndIndex : Obligations.StepKeepsHalvesAndIndex := by
  intro s t a h
  exact (captureMoves_step h).keep (p := State.captureAgrees)
    (fun _ _ m ⟨halves, index⟩ => ⟨captureMove_keeps_halvesAgree m halves, captureMove_keeps_indexAgrees m halves index⟩) a
end

section
/-! SUPPORT. StepKeepsCapturesWithinHalves: the counts of a capture through every move (R53, R54, R66, R69, R81). -/

namespace Sys2Proof.Machine

/-! ## The constraints of a configuration (R53, R54) -/

theorem valid_iff (c : SlotConfig) :
    c.valid = true ↔ c.base % 512 = 0 ∧ c.base ≤ 16776192 ∧ c.size % 512 = 0 ∧ 512 ≤ c.size ∧ c.size ≤ 262144 ∧
      c.pre < c.size ∧ 1 ≤ c.post ∧ c.pre + c.post ≤ c.size ∧ c.early ≤ 255 ∧ c.early < c.post ∧
      c.base + 2 * c.size ≤ 16777216 := by
  simp only [SlotConfig.valid, Bool.and_eq_true, decide_eq_true_eq]
  unfold Config.memoryWords
  omega

theorem reset_valid : SlotConfig.reset.valid = true := by decide

/-! ## One slot's counts -/

/-- A half's record stays within the configuration's half, and one that holds a capture fits it (R81). -/
def CaptureRecord.within (r : CaptureRecord) (c : SlotConfig) : Prop :=
  r.filled ≤ c.size ∧ (r.state.holdsCapture = true → r.fits c)

/-- A running capture fits its half, short of a target that the half has room for (R66, R69). -/
def CaptureRecord.runsTo (r : CaptureRecord) (c : SlotConfig) (target : Nat) : Prop :=
  r.fits c ∧ r.postCount < target ∧ r.preCount + target ≤ c.size

theorem countsAgree_iff (x : Slot) :
    x.countsAgree ↔ x.config.valid = true ∧ x.live.writePos < x.config.size ∧ (∀ h, (x.record h).within x.config) ∧
      (x.live.state = .post → ∀ h, x.live.active = some h → (x.record h).runsTo x.config x.live.postTarget) := by
  simp only [Slot.countsAgree, CaptureRecord.within, CaptureRecord.runsTo, forall_and, and_assoc]

theorem cleared_within (c : SlotConfig) (state : HalfState) (h : state.holdsCapture = false) :
    (CaptureRecord.cleared state).within c :=
  ⟨Nat.zero_le _, fun k => by simp [CaptureRecord.cleared, h] at k⟩

theorem Slot.countsAgree.room {x : Slot} (a : x.countsAgree) : 0 < x.config.size :=
  Nat.zero_lt_of_lt a.2.1

/-- The counts after a change of one half and of the live fields. -/
theorem updated_countsAgree {x : Slot} {h : Half} {r : CaptureRecord} {l : SlotLive} (a : x.countsAgree)
    (pos : l.writePos < x.config.size) (here : r.within x.config)
    (runs : l.state = .post → l.active = some h ∧ r.runsTo x.config l.postTarget) : (x.updated h r l).countsAgree := by
  obtain ⟨valid, -, halves, -⟩ := (countsAgree_iff x).mp a
  refine (countsAgree_iff _).mpr ⟨by simpa using valid, by simpa using pos,
    (forall_half h).mpr (by simpa using ⟨here, halves h.other⟩), fun post k active => ?_⟩
  obtain ⟨now, run⟩ := runs post
  cases Option.some.inj (now.symm.trans active)
  simpa using run

/-- The counts of a slot that comes to rest with one half changed. -/
theorem rested_countsAgree {x : Slot} {h : Half} {r : CaptureRecord} {state : SlotState} (a : x.countsAgree)
    (quiet : state = .idle ∨ state = .stalled) (here : r.within x.config) :
    (x.updated h r (SlotLive.cleared state)).countsAgree :=
  updated_countsAgree a a.room here fun post => by rcases quiet with rfl | rfl <;> exact absurd post (by simp [SlotLive.cleared])

theorem taken_countsAgree {x : Slot} (a : x.countsAgree) (h : Half) : (x.taken h).countsAgree :=
  updated_countsAgree a a.room (cleared_within _ _ rfl) fun post => absurd post (by simp [SlotLive.cleared])

/-- A half that is not ACTIVE is not the one that the live fields name. -/
theorem off_of_state {x : Slot} {h : Half} (halves : x.activeAgrees) (state : (x.record h).state ≠ .active) :
    x.live.active ≠ some h :=
  fun active => state (recordsOn_of_active halves active).here

/-- A half not recorded on changes beside whatever the slot does. -/
theorem setRecord_countsAgree {x : Slot} {h : Half} {r : CaptureRecord} (a : x.countsAgree) (off : x.live.active ≠ some h)
    (here : r.within x.config) : (x.setRecord h r).countsAgree := by
  rw [setRecord_eq_updated]
  obtain ⟨valid, pos, halves, runs⟩ := (countsAgree_iff x).mp a
  refine (countsAgree_iff _).mpr ⟨by simpa using valid, by simpa using pos,
    (forall_half h).mpr (by simpa using ⟨here, halves h.other⟩), fun post k active => ?_⟩
  have other : k = h.other := (half_eq_or_other k h).resolve_left fun e => off (e ▸ active)
  subst other
  simpa using runs post _ active

/-! ## The record after a sample, a trigger and a retrigger -/

/-- A record whose half is recorded on is within its half by what it has filled alone. -/
theorem within_of_active {r : CaptureRecord} {c : SlotConfig} (active : r.state = .active) (filled : r.filled ≤ c.size) :
    r.within c :=
  ⟨filled, fun k => by simp [active, HalfState.holdsCapture] at k⟩

theorem storedRecord_counts (x : Slot) (h : Half) (t : Tick) :
    (x.storedRecord h t).filled = min ((x.record h).filled + 1) x.config.size ∧
      (x.storedRecord h t).preCount = (x.record h).preCount := by
  unfold Slot.storedRecord
  dsimp only
  (repeat' split) <;> exact ⟨rfl, rfl⟩

/-- A post sample keeps the capture within its half. -/
theorem storedRecord_fits {x : Slot} {h : Half} (t : Tick) (post : x.live.state = .post)
    (runs : (x.record h).runsTo x.config x.live.postTarget) : (x.storedRecord h t).fits x.config := by
  obtain ⟨filled, pre⟩ := storedRecord_counts x h t
  have count := storedRecord_postCount h t post
  simp only [CaptureRecord.runsTo, CaptureRecord.fits] at runs ⊢
  omega

/-- What a capture's fit reads of its record. -/
theorem fits_congr {r r' : CaptureRecord} {c : SlotConfig} (a : r.fits c)
    (same : r'.preCount = r.preCount ∧ r'.postCount = r.postCount ∧ r'.filled = r.filled) : r'.fits c := by
  obtain ⟨pre, post, filled⟩ := same
  simpa only [CaptureRecord.fits, pre, post, filled] using a

theorem ended_within {r : CaptureRecord} {c : SlotConfig} (a : r.fits c) (time : Tick) : (r.ended time).within c :=
  ⟨(fits_congr a ⟨rfl, rfl, rfl⟩).2.2.2, fun _ => fits_congr a ⟨rfl, rfl, rfl⟩⟩

theorem truncatedRecord_counts (x : Slot) (h : Half) :
    (x.truncatedRecord h).preCount = (x.record h).preCount ∧ (x.truncatedRecord h).postCount = (x.record h).postCount ∧
      (x.truncatedRecord h).filled = (x.record h).filled :=
  ⟨rfl, rfl, rfl⟩

/-- A slot is locked while it works or a half of it holds a capture (R55, R59). -/
theorem locked_iff (x : Slot) :
    x.locked = true ↔ x.live.state ≠ .idle ∨ ∃ h, (x.record h).state = .sealing ∨ (x.record h).state = .full := by
  have holds : ∀ r : HalfState, r.holdsCapture = true ↔ r = .sealing ∨ r = .full := fun r => by
    cases r <;> simp [HalfState.holdsCapture]
  have halves : (∃ h, (x.record h).state = .sealing ∨ (x.record h).state = .full) ↔
      (x.recA.state = .sealing ∨ x.recA.state = .full) ∨ x.recB.state = .sealing ∨ x.recB.state = .full := by
    refine ⟨fun ⟨h, k⟩ => ?_, fun k => k.elim (fun k => ⟨.a, k⟩) fun k => ⟨.b, k⟩⟩
    cases h with
    | a => exact .inl k
    | b => exact .inr k
  simp only [Slot.locked, Bool.or_eq_true, decide_eq_true_eq, holds, halves, or_assoc]

/-- A slot that is not locked has two EMPTY halves, so that no count of it binds a new configuration. -/
theorem configured_countsAgree {x : Slot} {c : SlotConfig} (halves : x.activeAgrees) (unlocked : x.locked = false)
    (valid : c.valid = true) : ({ x with config := c } : Slot).countsAgree := by
  rw [← Bool.not_eq_true, locked_iff] at unlocked
  push Not at unlocked
  obtain ⟨idle, none_held⟩ := unlocked
  have still := atRest_of_resting halves (resting_of_state (.inl idle))
  have cleared : ∀ h, x.record h = CaptureRecord.cleared .empty := fun h => by
    refine still.cleared h ?_
    cases state : (x.record h).state with
    | empty => rfl
    | active => exact absurd state (still.inactive h)
    | sealing => exact absurd state (none_held h).1
    | full => exact absurd state (none_held h).2
  have room := (valid_iff c).mp valid
  refine (countsAgree_iff _).mpr ⟨valid, ?_, fun h => ?_, fun post => ?_⟩
  · rw [still.live]
    simp only [SlotLive.cleared]
    omega
  · rw [record_with_config, cleared]
    exact cleared_within c _ rfl
  · exact absurd post (by simp [idle])

/-! ## Every move -/

theorem slotMove_keeps_countsAgree {x y : Slot} (m : SlotMove x y) (halves : x.activeAgrees) (a : x.countsAgree) :
    y.countsAgree := by
  obtain ⟨valid, pos, within, runs⟩ := (countsAgree_iff x).mp a
  have active : ∀ {h}, x.live.active = some h → (x.record h).state = .active := fun e => (recordsOn_of_active halves e).here
  have filled : ∀ h, (x.record h).filled ≤ x.config.size := fun h => (within h).1
  cases m with
  | @stores h t records now short =>
    obtain ⟨stored, pre⟩ := storedRecord_counts x h t
    refine updated_countsAgree a (Nat.mod_lt _ a.room)
      (within_of_active ((storedRecord_state x h t).trans (active now)) (by omega)) fun post => ⟨now, ?_⟩
    have run := runs post h now
    refine ⟨storedRecord_fits t post run, ?_, by rw [pre]; exact run.2.2⟩
    rw [storedRecord_postCount h t post]
    exact Nat.lt_of_le_of_ne run.2.1 (short post)
  | @notes h lost gaps now =>
    rw [setRecord_eq_updated]
    refine updated_countsAgree a pos (within_of_active (active now) (filled h)) fun post => ⟨now, ?_⟩
    obtain ⟨fits, short, room⟩ := runs post h now
    exact ⟨fits_congr fits ⟨rfl, rfl, rfl⟩, short, room⟩
  | @triggers h source t armed now =>
    rw [triggered_eq]
    refine updated_countsAgree a pos (within_of_active (active now) (filled h)) fun _ => ⟨now, ?_⟩
    have := filled h
    have := (valid_iff _).mp valid
    simp only [CaptureRecord.runsTo, CaptureRecord.fits]
    omega
  | @retriggers h post now =>
    have run := runs post h now
    cases policy : x.config.retrigger with
    | ignore =>
      rw [retriggered_of_ignore h policy]
      exact updated_countsAgree a pos (within_of_active (active now) (filled h)) fun _ =>
        ⟨now, fits_congr run.1 ⟨rfl, rfl, rfl⟩, run.2⟩
    | extend =>
      rw [retriggered_of_extend h policy]
      refine updated_countsAgree a pos (within_of_active (active now) (filled h)) fun _ =>
        ⟨now, fits_congr run.1 ⟨rfl, rfl, rfl⟩, ?_⟩
      obtain ⟨-, short, room⟩ := run
      have := (valid_iff _).mp valid
      dsimp only
      split <;> omega
  | @raisesEarly h post now =>
    exact updated_countsAgree a pos (within h) fun _ => ⟨now, runs post h now⟩
  | @completes h t post now reached =>
    rw [stored_eq, sealed_eq, updated_updated, rested_updated, record_updated]
    exact rested_countsAgree a (.inr rfl) (ended_within (storedRecord_fits t post (runs post h now)) _)
  | @truncates h post now =>
    rw [setRecord_eq_updated, sealed_eq, updated_updated, rested_updated, record_updated]
    exact rested_countsAgree a (.inl rfl)
      (ended_within (fits_congr (runs post h now).1 (truncatedRecord_counts x h)) _)
  | disarms armed now => exact rested_countsAgree a (.inl rfl) (cleared_within _ _ rfl)
  | takes rest empty => exact taken_countsAgree a _
  | rests rest quiet =>
    rw [Slot.rested, withLive_eq_updated x .a]
    exact rested_countsAgree a quiet (within .a)
  | configures c unlocked sound =>
    exact configured_countsAgree halves unlocked sound

theorem listed_within {r : CaptureRecord} {c : SlotConfig} (seals : r.state = .sealing) (a : r.within c) (number : BitVec 16) :
    (r.listed number).within c :=
  ⟨a.1, fun _ => fits_congr (a.2 (by simp [seals, HalfState.holdsCapture])) ⟨rfl, rfl, rfl⟩⟩

theorem resetCapture_countsAgree {x : Slot} (valid : x.config.valid = true) : x.resetCapture.countsAgree := by
  have room := (valid_iff _).mp valid
  refine (countsAgree_iff _).mpr ⟨valid, ?_, fun h => ?_, fun post => absurd post (by simp [Slot.resetCapture, SlotLive.cleared])⟩
  · simp only [Slot.resetCapture, SlotLive.cleared]
    omega
  · cases h <;> exact cleared_within _ _ rfl

theorem setSlot_countsAgree {s t : State} {i : Fin 8} {x : Slot} (a : ∀ i, (s.slot i).countsAgree)
    (slots : t.slots = (s.setSlot i x).slots) (m : x.countsAgree) (j : Fin 8) : (t.slot j).countsAgree := by
  obtain ⟨here, others⟩ := slot_of_slots slots
  by_cases e : j = i
  · rw [e, here]
    exact m
  · rw [others j e]
    exact a j

theorem captureMove_keeps_countsAgree {s t : State} (m : CaptureMove s t) (halves : s.halvesAgree)
    (a : ∀ i, (s.slot i).countsAgree) : ∀ i, (t.slot i).countsAgree := by
  cases m with
  | slots moves index =>
    intro i
    rcases moves i with still | moved
    · rw [still]
      exact a i
    · exact slotMove_keeps_countsAgree moved (halves i) (a i)
  | reclaims i h rest slots index =>
    exact setSlot_countsAgree a slots (taken_countsAgree (a i) h)
  | releases i h full slots index =>
    have before : ((s.slot i).record h).state = .full := full
    have off := off_of_state (halves i) (h := h) (by simp [before])
    exact setSlot_countsAgree a slots (setRecord_countsAgree (a i) off (cleared_within _ _ rfl))
  | lists i h number seals slots index =>
    have before : ((s.slot i).record h).state = .sealing := seals
    have off := off_of_state (halves i) (h := h) (by simp [before])
    obtain ⟨-, -, within, -⟩ := (countsAgree_iff _).mp (a i)
    exact setSlot_countsAgree a slots (setRecord_countsAgree (a i) off (listed_within seals (within h) number))
  | clears config cleared index =>
    intro i
    rw [cleared i]
    refine resetCapture_countsAgree ?_
    rcases config i with kept | reset
    · rw [kept]
      exact (a i).1
    · rw [reset]
      exact reset_valid

end Sys2Proof.Machine

open Sys2Proof Sys2Proof.Machine

/-- Settles O9: a step is a chain of moves, and every move keeps each slot's halves and counts in agreement. -/
theorem stepKeepsCapturesWithinHalves : Obligations.StepKeepsCapturesWithinHalves := by
  intro s t a h
  have kept := (captureMoves_step h).keep (p := fun u => u.halvesAgree ∧ ∀ i, (u.slot i).countsAgree)
    (fun _ _ m ⟨halves, counts⟩ => ⟨captureMove_keeps_halvesAgree m halves, captureMove_keeps_countsAgree m halves counts⟩)
    ⟨fun i => (a i).1, fun i => (a i).2⟩
  exact fun i => ⟨kept.1 i, kept.2 i⟩
end

section
/-! SUPPORT. TriggerRequestActsByTheSlotState: a COMMAND on a slot, and what a trigger request does by the state of the slot it finds
(R64, R65, R68 to R70). -/

namespace Sys2Proof.Machine

/-! ## A COMMAND whose argument names a slot -/

/-- A COMMAND on a slot is answered as its owner answers for the slot its argument names. -/
theorem execute_slotCommand {s u : State} {code : Nat} {i : Fin 4} {q : Taken} {status : Status} {j : Fin 8}
    {run : Fin 8 → State → State × Reply} (h : s.runsCommand code i q) (arg : j.val = q.request.argument.toNat % 256)
    (owner : run j s = (u, .answer status [])) :
    Responded u (execute (Request.asksFor code) (withArg slotArg run) s) i q status [] := by
  refine execute_answers h.1 (asksFor_of_runsCommand h) ?_
  rw [withArg, slotArg_of_slot j arg]
  exact owner

theorem execute_slotCommand_of_large {s : State} {code : Nat} {i : Fin 4} {q : Taken} {run : Fin 8 → State → State × Reply}
    (h : s.runsCommand code i q) (arg : 8 ≤ q.request.argument.toNat % 256) :
    Responded s (execute (Request.asksFor code) (withArg slotArg run) s) i q .badValue [] := by
  refine execute_answers h.1 (asksFor_of_runsCommand h) ?_
  rw [withArg, slotArg_of_large arg]
  rfl

/-! ## Sources that are slots -/

/-- A class of slots has the source of every slot. -/
theorem slotSource_of_class (i : Fin 8) {c : Fin 8} (slots : c ≠ classFault) :
    sourceBit (slotSource i) &&& classSources c = sourceBit (slotSource i) := by
  revert i c
  decide

/-- Raising the source of a slot leaves it pending (R132). -/
theorem raise_slot_pending (i : Fin 8) {c : Fin 8} (slots : c ≠ classFault) (s : State) :
    (raise c (slotSource i) s).notices.pending[c].getLsbD i.val = true := by
  have bit : (sourceBit (slotSource i)).getLsbD i.val = true := by
    revert i
    decide
  rw [raise_pending, slotSource_of_class i slots]
  simp [bit]

/-- A source pending stays so while others are raised. -/
theorem raise_keeps_pending {c d : Fin 8} {n : Fin 32} {k : Nat} {s : State} (h : s.notices.pending[c].getLsbD k = true) :
    (raise d n s).notices.pending[c].getLsbD k = true := by
  rw [raise_pending]
  by_cases e : d = c
  · subst e
    simp only [Fin.getElem_fin] at h
    simp [h]
  · have ne : d.val ≠ c.val := fun k => e (Fin.ext k)
    simpa [Vector.getElem_set_ne _ _ ne] using h

/-! ## A trigger request, by the state it finds -/

theorem trigger_of_idle {s : State} {i : Fin 8} (source : Nat) (t : Tick) (h : (s.slot i).live.state = .idle) :
    trigger i source t s = (s, .refusedIdle) := by
  simp only [trigger, h]

theorem trigger_of_stalled {s : State} {i : Fin 8} (source : Nat) (t : Tick) (h : (s.slot i).live.state = .stalled) :
    trigger i source t s = (raise classTriggerMissed (slotSource i) s, .refusedStalled) := by
  simp only [trigger, h]

theorem trigger_of_armed {s : State} {i : Fin 8} {h : Half} (source : Nat) (t : Tick) (armed : (s.slot i).live.state = .armed)
    (active : (s.slot i).live.active = some h) :
    trigger i source t s = (s.setSlot i ((s.slot i).triggered h source t), .taken) := by
  simp only [trigger, armed, active]

theorem trigger_of_post {s : State} {i : Fin 8} {h : Half} (source : Nat) (t : Tick) (post : (s.slot i).live.state = .post)
    (active : (s.slot i).live.active = some h) :
    trigger i source t s = (s.setSlot i ((s.slot i).retriggered h), .retriggered) := by
  simp only [trigger, post, active]

/-- FORCE-TRIGGER answers by the state that its request finds, whatever the gate (R70). -/
theorem forceTrigger_eq (i : Fin 8) (s : State) :
    forceTrigger i s = ((trigger i 32 0 s).1, .answer (forceStatus (s.slot i).live.state.outcome) []) := by
  simp only [forceTrigger, trigger_outcome]

end Sys2Proof.Machine

open Sys2Proof Sys2Proof.Machine

/-- Settles O33: FORCE-TRIGGER by its argument, then a request by the state of the slot and, in POST, by the policy. -/
theorem triggerRequestActsByTheSlotState : Obligations.TriggerRequestActsByTheSlotState := by
  constructor
  · intro s c q runs arg
    refine ⟨fun large => ⟨_, rfl, execute_slotCommand_of_large runs large⟩, fun i named => ?_⟩
    have answers := execute_slotCommand runs named (forceTrigger_eq i s)
    refine ⟨_, rfl, ?_⟩
    revert answers
    cases (s.slot i).live.state <;> exact id
  · intro s i source time x
    refine ⟨trigger_of_idle source time, fun stalled => ?_, fun h armed active => ?_, fun h post active policy => ?_,
      fun h post active policy => ?_⟩
    · rw [trigger_of_stalled source time stalled]
      exact ⟨rfl, raise_only _ _ s (slotSource_of_class i (by decide))⟩
    · exact trigger_of_armed source time armed active
    · rw [trigger_of_post source time post active, retriggered_of_ignore h policy, ← setRecord_eq_updated]
      rfl
    · intro r fitsIn
      rw [trigger_of_post source time post active, retriggered_of_extend h policy]
      rfl
end

section
/-! SUPPORT. ArmedSlotStoresOrLosesASample: what a slot does with a sample by its state and the room in the write queue, and what the
arrival of the sample's entry does (R53, R61 to R63, R107, R124, R126). -/

namespace Sys2Proof.Machine

/-! ## Arrivals of work (R107, R124) -/

theorem workArrives_of_hold {s : State} (h : s.ctl.state = .hold) : workArrives s = beginExit s := by
  simp only [workArrives, h, if_true]

theorem workArrives_of_notHold {s : State} (h : s.ctl.state ≠ .hold) : workArrives s = chooseMem s := by
  simp only [workArrives, h, if_false]

/-! ## A sample stored or lost (R61, R62) -/

/-- The state in which the entry of a sample has arrived at the write queue. -/
def State.sampleQueued (s : State) (i : Fin 8) (h : Half) (v : Sample) : State :=
  workArrives { s with queue := s.queue ++ [(s.slot i).entry i h v] }

theorem sampleQueued_keeps (s : State) (i : Fin 8) (h : Half) (v : Sample) :
    (s.sampleQueued i h v).slots = s.slots ∧ (s.sampleQueued i h v).watches = s.watches ∧
      (s.sampleQueued i h v).capture = s.capture ∧ (s.sampleQueued i h v).notices = s.notices := by
  simp [State.sampleQueued]

theorem slotSample_of_room {s : State} {i : Fin 8} {h : Half} (v : Sample) (t : Tick) (records : (s.slot i).recording)
    (active : (s.slot i).live.active = some h) (room : s.queue.length < 128) : slotSample i v t s = storeSample i h v t s := by
  have fits : ¬ Config.queueCapacity ≤ s.queue.length := Nat.not_le.mpr room
  rcases records with armed | post
  · simp only [slotSample, armed, active, fits, if_false]
  · simp only [slotSample, post, active, fits, if_false]

theorem slotSample_of_full {s : State} {i : Fin 8} {h : Half} (v : Sample) (t : Tick) (records : (s.slot i).recording)
    (active : (s.slot i).live.active = some h) (full : 128 ≤ s.queue.length) : slotSample i v t s = loseSample i h s := by
  have full : Config.queueCapacity ≤ s.queue.length := full
  rcases records with armed | post
  · simp only [slotSample, armed, active, full, if_true]
  · simp only [slotSample, post, active, full, if_true]

theorem slotSample_of_rest {s : State} {i : Fin 8} (v : Sample) (t : Tick)
    (rest : (s.slot i).live.state = .idle ∨ (s.slot i).live.state = .stalled) : slotSample i v t s = s := by
  rcases rest with idle | stalled
  · exact slotSample_idle i v t idle
  · simp only [slotSample, stalled]

theorem storeSample_of_armed {s : State} {i : Fin 8} (h : Half) (v : Sample) (t : Tick) (armed : (s.slot i).live.state = .armed) :
    storeSample i h v t s = (s.sampleQueued i h v).setSlot i ((s.slot i).stored h t) := by
  simp only [storeSample, armed, reduceCtorEq, if_false]
  rfl

theorem storeSample_of_post {s : State} {i : Fin 8} (h : Half) (v : Sample) (t : Tick) (post : (s.slot i).live.state = .post) :
    storeSample i h v t s = afterPost i h ((s.sampleQueued i h v).setSlot i ((s.slot i).stored h t)) := by
  simp only [storeSample, post, if_true]
  rfl

/-- Before the trigger a sample moves the write position, the fill and the last stored time (R61). -/
theorem stored_of_armed {x : Slot} (h : Half) (t : Tick) (armed : x.live.state = .armed) :
    x.stored h t = x.updated h { x.record h with filled := min ((x.record h).filled + 1) x.config.size }
      { x.live with writePos := (x.live.writePos + 1) % x.config.size, lastStored := t } := by
  simp only [stored_eq, Slot.storedRecord, Slot.storedLive, armed, reduceCtorEq, if_false]

/-- A slot set in a state whose slots are those of `s`, and set back. -/
theorem setSlot_restored {s u : State} (same : u.slots = s.slots) (i : Fin 8) (x : Slot) :
    { u.setSlot i x with slots := s.slots } = u := by
  rw [← same]
  rfl

end Sys2Proof.Machine

open Sys2Proof Sys2Proof.Machine

/-- Settles O34: with room the entry arrives and the slot moves on, without room the loss is counted, at rest nothing happens. -/
theorem armedSlotStoresOrLosesASample : Obligations.ArmedSlotStoresOrLosesASample := by
  intro s i v time x entry
  refine ⟨fun h armed active room => ?_, fun h records active full => ?_, slotSample_of_rest v time⟩
  · rw [slotSample_of_room v time (.inl armed) active room, storeSample_of_armed h v time armed, stored_of_armed h time armed]
    obtain ⟨same, watches, capture, notices⟩ := sampleQueued_keeps s i h v
    have queued : ∀ y : Slot, { (s.sampleQueued i h v).setSlot i y with slots := s.slots } = s.sampleQueued i h v :=
      setSlot_restored same i
    refine ⟨slot_setSlot _ i _, fun j n => (slot_setSlot_ne _ _ n).trans (slot_congr same j), fun busy awake => ?_,
      fun awake => ?_, fun hold => ?_, ?_⟩
    · have waits : s.sampleQueued i h v = { s with queue := s.queue ++ [entry h] } := workArrives_of_busy busy awake
      rw [waits]
      exact ⟨rfl, rfl⟩
    · exact (queued _).trans (workArrives_of_notHold awake)
    · exact (queued _).trans (workArrives_of_hold hold)
    · exact ⟨notices, watches, capture⟩
  · rw [slotSample_of_full v time records active full]
    exact raise_only _ _ _ (slotSource_of_class i (by decide))
end

section
/-! SUPPORT. PostSampleAdvancesTheCapture: the record after a post sample, the completion at the target, the slot's next half and its
count word (R61, R66, R67, R71, R73, R95, R107, R124). -/

namespace Sys2Proof.Machine

/-! ## Positions round a half (R66, R72) -/

/-- The start of a capture lies so many samples before its first post sample. -/
theorem ringSub_spec {a b m : Nat} (pos : a < m) (fits : b ≤ m) : (ringSub a b m + b) % m = a ∧ ringSub a b m < m := by
  refine ⟨?_, Nat.mod_lt _ (by omega)⟩
  rw [ringSub, Nat.mod_add_mod]
  rcases Nat.eq_or_lt_of_le fits with whole | part
  · simp [whole, Nat.mod_eq_of_lt pos]
  · have round : a + (m - b) + b = a + m := by omega
    simp [Nat.mod_eq_of_lt part, round, Nat.mod_eq_of_lt pos]

/-! ## The record after a post sample (R61, R66) -/

/-- What a post sample leaves of the record, and that it counts one. -/
theorem storedRecord_of_post {x : Slot} (h : Half) (t : Tick) (post : x.live.state = .post) :
    x.storedRecord h t =
      { x.record h with
        filled := min ((x.record h).filled + 1) x.config.size
        postCount := (x.record h).postCount + 1
        start :=
          if x.live.firstPostPending then ringSub x.live.writePos (x.record h).preCount x.config.size else (x.record h).start
        triggerTime :=
          if x.live.firstPostPending then if (x.record h).triggerSource = 32 then t else (x.record h).triggerTime
          else (x.record h).triggerTime } := by
  simp only [Slot.storedRecord, post, if_true]
  split <;> rfl

/-! ## After a post sample (R67) -/

theorem afterPost_of_reached {s : State} {i : Fin 8} {h : Half}
    (reached : (s.record i h).postCount = (s.slot i).live.postTarget) : afterPost i h s = complete i h s := by
  simp only [afterPost, reached, if_true]

/-- EARLY is raised when exactly E samples remain. -/
theorem afterPost_of_early {s : State} {i : Fin 8} {h : Half}
    (short : (s.record i h).postCount ≠ (s.slot i).live.postTarget) (wanted : (s.slot i).config.early ≠ 0)
    (fresh : (s.slot i).live.earlyRaised = false)
    (remain : (s.record i h).postCount + (s.slot i).config.early = (s.slot i).live.postTarget) :
    afterPost i h s =
      raise classEarly (slotSource i) (s.setLive i { (s.slot i).live with earlyRaised := true }) := by
  rw [afterPost, if_neg short, if_pos ⟨wanted, fresh, remain⟩]

theorem afterPost_of_quiet {s : State} {i : Fin 8} {h : Half}
    (short : (s.record i h).postCount ≠ (s.slot i).live.postTarget)
    (quiet : (s.slot i).config.early = 0 ∨ (s.slot i).live.earlyRaised = true ∨
      (s.record i h).postCount + (s.slot i).config.early ≠ (s.slot i).live.postTarget) : afterPost i h s = s := by
  rw [afterPost, if_neg short, if_neg]
  rintro ⟨wanted, fresh, remain⟩
  rcases quiet with none | raised | other
  · exact wanted none
  · simp [raised] at fresh
  · exact other remain

/-! ## The next half (R71, R73, R95) -/

/-- The slot can take the half: it is EMPTY, or FULL and the policy is OVERWRITE (R71, R73). -/
def State.halfFree (s : State) (i : Fin 8) (o : Half) : Prop :=
  (s.record i o).state = .empty ∨ ((s.record i o).state = .full ∧ (s.slot i).config.full = .overwrite)

theorem nextHalf_of_empty {s : State} {i : Fin 8} {o : Half} (empty : (s.record i o).state = .empty) :
    nextHalf i o s = takeHalf i o s := by
  simp only [nextHalf, empty]

theorem nextHalf_of_full {s : State} {i : Fin 8} {o : Half} (full : (s.record i o).state = .full)
    (policy : (s.slot i).config.full = .overwrite) : nextHalf i o s = reclaim i o s := by
  simp only [nextHalf, full, policy]

/-- Without a half to take the slot is STALLED. -/
theorem nextHalf_of_notFree {s : State} {i : Fin 8} {o : Half} (held : ¬ s.halfFree i o) :
    nextHalf i o s = toRest i .stalled s := by
  unfold nextHalf
  split
  · exact absurd (.inl ‹_›) held
  · exact absurd (.inr ⟨‹_›, ‹_›⟩) held
  all_goals rfl

theorem nextHalf_slots_of_free {s : State} {i : Fin 8} {o : Half} (free : s.halfFree i o) :
    (nextHalf i o s).slots = (s.setSlot i ((s.slot i).taken o)).slots := by
  rcases free with empty | ⟨full, policy⟩
  · rw [nextHalf_of_empty empty, takeHalf_slots]
  · rw [nextHalf_of_full full policy, reclaim_slots]

/-- The next half leaves the half that has ended, and every other slot, as they are. -/
theorem nextHalf_leaves (i : Fin 8) (o : Half) (s : State) :
    (nextHalf i o s).record i o.other = s.record i o.other ∧ ∀ k, k ≠ i → (nextHalf i o s).slot k = s.slot k := by
  by_cases free : s.halfFree i o
  · obtain ⟨here, others⟩ := slot_of_slots (nextHalf_slots_of_free free)
    exact ⟨by simp [State.record, here, Slot.taken], others⟩
  · obtain ⟨here, others⟩ := slot_of_slots (toRest_slots i .stalled s)
    rw [nextHalf_of_notFree free]
    exact ⟨by rw [State.record, here, record_rested, State.record], others⟩

theorem slot_nextHalf_of_free {s : State} {i : Fin 8} {o : Half} (free : s.halfFree i o) :
    ((nextHalf i o s).slot i).live = { SlotLive.cleared .armed with active := some o } ∧
      (nextHalf i o s).record i o = CaptureRecord.cleared .active := by
  obtain ⟨here, -⟩ := slot_of_slots (nextHalf_slots_of_free free)
  exact ⟨by rw [here]; rfl, by simp [State.record, here, Slot.taken]⟩

/-- Taking a half whose count word is not to be marked is all that happens. -/
theorem takeHalf_of_unmarked {s : State} {i : Fin 8} {h : Half}
    (unmarked : s.capture.tableOn = false ∨ s.ctl.dirty[countWordOf i h] = true) : takeHalf i h s = activate i h s := by
  rcases unmarked with off | set
  · exact markDirty_of_off (s := activate i h s) _ off
  · exact markDirty_of_set (s := activate i h s) _ set

theorem takeHalf_of_marked {s : State} {i : Fin 8} {h : Half} (on : s.capture.tableOn = true)
    (clean : s.ctl.dirty[countWordOf i h] = false) :
    takeHalf i h s = workArrives (setMark (countWordOf i h) (activate i h s)) := by
  have marks : (activate i h s).capture.tableOn = true ∧ (activate i h s).ctl.dirty[countWordOf i h] = false := by
    simpa using ⟨on, clean⟩
  rw [takeHalf, markDirty, if_pos marks]

/-- What an arrival does to the controller and the queue is read from them, the slots and the base of the count table. -/
theorem workArrives_congr {a b : State} (slots : a.slots = b.slots) (queue : a.queue = b.queue) (ctl : a.ctl = b.ctl)
    (base : a.capture.tableBase = b.capture.tableBase) :
    (workArrives a).queue = (workArrives b).queue ∧ (workArrives a).ctl = (workArrives b).ctl := by
  have value : ∀ w, a.countValue w = b.countValue w := fun w => by rw [State.countValue, State.countValue, record_congr slots]
  have address : ∀ w, a.countAddress w = b.countAddress w := fun w => by rw [State.countAddress, State.countAddress, base]
  unfold workArrives beginExit chooseMem beginWork beginBurst beginCountWrite
  simp only [queue, ctl, value, address]
  (repeat' split) <;> simp [queue, ctl]

/-- The slot's next half marks its count word, unless the table is off or the mark is set (R95, R115). -/
theorem nextHalf_marks {s : State} {i : Fin 8} {o : Half} (free : s.halfFree i o) :
    (s.capture.tableOn = false ∨ s.ctl.dirty[countWordOf i o] = true →
      (nextHalf i o s).queue = s.queue ∧ (nextHalf i o s).ctl = s.ctl) ∧
    (s.capture.tableOn = true → s.ctl.dirty[countWordOf i o] = false →
      (nextHalf i o s).queue = (workArrives (setMark (countWordOf i o) (activate i o s))).queue ∧
        (nextHalf i o s).ctl = (workArrives (setMark (countWordOf i o) (activate i o s))).ctl) := by
  rcases free with empty | ⟨full, policy⟩
  · rw [nextHalf_of_empty empty]
    refine ⟨fun unmarked => ?_, fun on clean => ?_⟩
    · simp [takeHalf_of_unmarked unmarked]
    · rw [takeHalf_of_marked on clean]
      exact ⟨rfl, rfl⟩
  · rw [nextHalf_of_full full policy]
    simp only [reclaim, raise_keeps]
    refine ⟨fun unmarked => ?_, fun on clean => ?_⟩
    · rw [takeHalf_of_unmarked (s := removeIndex i o s) unmarked]
      exact ⟨rfl, rfl⟩
    · rw [takeHalf_of_marked (s := removeIndex i o s) on clean]
      exact workArrives_congr rfl rfl rfl rfl

/-! ## Completion (R71) -/

theorem complete_eq (i : Fin 8) (h : Half) (s : State) :
    complete i h s = nextHalf i h.other (s.setSlot i ((s.slot i).sealed h)) := rfl

/-- A completion ends the capture's half and touches no other slot. -/
theorem complete_leaves (i : Fin 8) (h : Half) (s : State) :
    (complete i h s).record i h = (s.record i h).ended (s.slot i).live.lastStored ∧
      ∀ k, k ≠ i → (complete i h s).slot k = s.slot k := by
  obtain ⟨here, others⟩ := nextHalf_leaves i h.other (s.setSlot i ((s.slot i).sealed h))
  rw [half_other_other] at here
  refine ⟨here.trans ?_, fun k n => (others k n).trans (slot_setSlot_ne s _ n)⟩
  simp [State.record, sealed_eq]

/-- The end of a half says nothing of the other. -/
theorem sealed_halfFree (s : State) (i : Fin 8) (h : Half) :
    (s.setSlot i ((s.slot i).sealed h)).halfFree i h.other ↔ s.halfFree i h.other := by
  simp [State.halfFree, State.record, sealed_eq]

/-- With a half to take the slot is ARMED on it. -/
theorem complete_of_free {s : State} {i : Fin 8} {h : Half} (free : s.halfFree i h.other) :
    ((complete i h s).slot i).live = { SlotLive.cleared .armed with active := some h.other } ∧
      (complete i h s).record i h.other = CaptureRecord.cleared .active :=
  slot_nextHalf_of_free ((sealed_halfFree s i h).mpr free)

/-- A half taken by reclaim leaves the index, and OVERWRITTEN is raised (R73). -/
theorem complete_of_full {s : State} {i : Fin 8} {h : Half} (full : (s.record i h.other).state = .full)
    (policy : (s.slot i).config.full = .overwrite) :
    (complete i h s).capture = { s.capture with index := s.capture.index.filter fun e => decide (e ≠ (i, h.other)) } ∧
      (complete i h s).notices.pending[classOverwritten].getLsbD i.val = true := by
  have kept : ((s.setSlot i ((s.slot i).sealed h)).record i h.other).state = .full ∧
      ((s.setSlot i ((s.slot i).sealed h)).slot i).config.full = .overwrite := by
    simpa [State.record, sealed_eq] using And.intro full policy
  rw [complete_eq, nextHalf_of_full kept.1 kept.2]
  exact ⟨reclaim_capture _ _ _, raise_slot_pending i (by decide) _⟩

/-- Without one it is STALLED, and nothing waits at the memory controller for it. -/
theorem complete_of_notFree {s : State} {i : Fin 8} {h : Half} (held : ¬ s.halfFree i h.other) :
    (complete i h s).slot i = { (complete i h s).slot i with live := SlotLive.cleared .stalled } ∧
      (complete i h s).queue = s.queue ∧ (complete i h s).ctl = s.ctl := by
  rw [complete_eq, nextHalf_of_notFree fun free => held ((sealed_halfFree s i h).mp free), slot_toRest]
  exact ⟨rfl, rfl, rfl⟩

/-- The half taken marks its count word, unless the table is off or the mark is set (R95, R115). -/
theorem complete_marks {s : State} {i : Fin 8} {h : Half} (free : s.halfFree i h.other) :
    (s.capture.tableOn = false ∨ s.ctl.dirty[countWordOf i h.other] = true →
      (complete i h s).queue = s.queue ∧ (complete i h s).ctl = s.ctl) ∧
    (s.capture.tableOn = true → s.ctl.dirty[countWordOf i h.other] = false → ∀ a : State, a.slots = (complete i h s).slots →
      a.queue = s.queue → a.ctl = { s.ctl with dirty := s.ctl.dirty.set (countWordOf i h.other) true } →
      a.capture.tableBase = s.capture.tableBase →
      (complete i h s).queue = (workArrives a).queue ∧ (complete i h s).ctl = (workArrives a).ctl) := by
  have free := (sealed_halfFree s i h).mpr free
  obtain ⟨unmarked, marked⟩ := nextHalf_marks free
  refine ⟨unmarked, fun on clean a slots queue ctl base => ?_⟩
  obtain ⟨sameQueue, sameCtl⟩ := marked on clean
  have arrives := workArrives_congr
    (a := setMark (countWordOf i h.other) (activate i h.other (s.setSlot i ((s.slot i).sealed h)))) (b := a)
    (((nextHalf_slots_of_free free).symm.trans slots.symm)) queue.symm ctl.symm base.symm
  exact ⟨sameQueue.trans arrives.1, sameCtl.trans arrives.2⟩

/-- Whatever R67 does after a post sample, of the half's record it can change the state and the last sample time alone. -/
theorem afterPost_leaves (i : Fin 8) (h : Half) (s : State) :
    (∃ state time, (afterPost i h s).record i h = { s.record i h with state := state, lastSampleTime := time }) ∧
      ∀ k, k ≠ i → (afterPost i h s).slot k = s.slot k := by
  unfold afterPost
  split
  · obtain ⟨here, others⟩ := complete_leaves i h s
    exact ⟨⟨_, _, here⟩, others⟩
  · split
    · obtain ⟨here, others⟩ := slot_of_slots
        (t := raise classEarly (slotSource i) (s.setLive i { (s.slot i).live with earlyRaised := true })) (by simp; rfl)
      exact ⟨⟨_, _, by rw [State.record, here, record_with_live]; rfl⟩, others⟩
    · exact ⟨⟨_, _, rfl⟩, fun _ _ => rfl⟩

theorem live_raise_setLive (c : Fin 8) (n : Fin 32) (i : Fin 8) (l : SlotLive) (s : State) :
    ((raise c n (s.setLive i l)).slot i).live = l := by
  rw [slot_congr (s := s.setLive i l) (by simp), slot_of_setLive]

/-- Short of the target R67 can set the EARLY mark, and touches neither queue nor controller. -/
theorem afterPost_of_short {s : State} {i : Fin 8} {h : Half}
    (short : (s.record i h).postCount ≠ (s.slot i).live.postTarget) :
    (∃ b, ((afterPost i h s).slot i).live = { (s.slot i).live with earlyRaised := b }) ∧
      (afterPost i h s).queue = s.queue ∧ (afterPost i h s).ctl = s.ctl := by
  rw [afterPost, if_neg short]
  split
  · exact ⟨⟨_, live_raise_setLive _ _ _ _ _⟩, by simp⟩
  · exact ⟨⟨_, rfl⟩, rfl, rfl⟩

/-- The slot after a post sample, before R67 is applied. -/
theorem storedLive_of_post {x : Slot} (t : Tick) (post : x.live.state = .post) :
    x.storedLive t =
      { x.live with writePos := (x.live.writePos + 1) % x.config.size, lastStored := t, firstPostPending := false } := by
  simp only [Slot.storedLive, post, if_true]

end Sys2Proof.Machine

open Sys2Proof Sys2Proof.Machine

/-- Settles O35: the sample stored, then R67 short of the target and at it, where the other half's state decides. -/
theorem postSampleAdvancesTheCapture : Obligations.PostSampleAdvancesTheCapture := by
  intro s i h v time post active room pos fits x r t first arrive u word marked
  have sample : t = afterPost i h (u.setSlot i (x.stored h time)) :=
    (slotSample_of_room v time (.inr post) active room).trans (storeSample_of_post h v time post)
  obtain ⟨slots, -, capture, notices⟩ : u.slots = s.slots ∧ u.watches = s.watches ∧ u.capture = s.capture ∧
    u.notices = s.notices := sampleQueued_keeps s i h v
  have here : (u.setSlot i (x.stored h time)).slot i = x.stored h time := slot_setSlot u i _
  have record : (u.setSlot i (x.stored h time)).record i h = x.storedRecord h time := by rw [State.record, here, record_stored]
  have count : ((u.setSlot i (x.stored h time)).record i h).postCount = r.postCount + 1 :=
    record ▸ storedRecord_postCount h time post
  have target : ((u.setSlot i (x.stored h time)).slot i).live.postTarget = x.live.postTarget := by rw [here]; rfl
  have margin : ((u.setSlot i (x.stored h time)).slot i).config.early = x.config.early := by rw [here, config_stored]
  have raised : ((u.setSlot i (x.stored h time)).slot i).live.earlyRaised = x.live.earlyRaised := by rw [here]; rfl
  refine ⟨?_, fun short => ?_, fun reached => ?_⟩
  · obtain ⟨⟨state, last, ends⟩, others⟩ := afterPost_leaves i h (u.setSlot i (x.stored h time))
    rw [← sample, record, storedRecord_of_post h time post] at ends
    rw [ends]
    refine ⟨rfl, rfl, fun isFirst => ?_, fun isLater => ?_, rfl, rfl, rfl, rfl, rfl, fun k n => ?_⟩
    · obtain ⟨back, inside⟩ := ringSub_spec pos fits
      have isFirst : (s.slot i).live.firstPostPending = true := isFirst
      simp only [isFirst, if_true]
      exact ⟨back, inside, rfl⟩
    · have isLater : ¬ (s.slot i).live.firstPostPending = true := isLater
      simp only [isLater]
      exact ⟨rfl, rfl⟩
    · rw [sample, others k n, slot_setSlot_ne _ _ n, slot_congr slots]
  · have short := (count.trans_ne short).trans_eq target.symm
    obtain ⟨⟨b, after⟩, queue, ctl⟩ := afterPost_of_short short
    rw [← sample, here, live_stored, storedLive_of_post time post] at after
    rw [← sample] at queue ctl
    refine ⟨by rw [after], queue, ctl, by rw [after]; exact post, by rw [after], by rw [after], fun wanted fresh remain => ?_,
      fun quiet => ?_⟩
    · rw [sample, afterPost_of_early short (by rwa [margin]) (by rwa [raised]) (by rwa [count, margin, target]),
        live_raise_setLive]
      exact ⟨rfl, raise_slot_pending i (by decide) _⟩
    · rw [sample, afterPost_of_quiet short (by rwa [count, margin, raised, target])]
      exact ⟨raised, notices⟩
  · have reached := (count.trans reached).trans target.symm
    obtain ⟨ended, -⟩ := complete_leaves i h (u.setSlot i (x.stored h time))
    rw [afterPost_of_reached reached] at sample
    rw [← sample, record, here] at ended
    have other : (u.setSlot i (x.stored h time)).record i h.other = s.record i h.other := by
      simp [State.record, stored_eq, x]
    have policy : ((u.setSlot i (x.stored h time)).slot i).config.full = x.config.full := by rw [here, config_stored]
    have takes : (u.setSlot i (x.stored h time)).halfFree i h.other → (t.slot i).live =
        { SlotLive.cleared .armed with active := some h.other } ∧ t.record i h.other = CaptureRecord.cleared .active :=
      fun free => sample ▸ complete_of_free free
    have stalls : ¬ (u.setSlot i (x.stored h time)).halfFree i h.other →
        t.slot i = { t.slot i with live := SlotLive.cleared .stalled } ∧ t.queue = u.queue ∧ t.ctl = u.ctl :=
      fun held => sample ▸ complete_of_notFree held
    refine ⟨by rw [ended]; rfl, by rw [ended]; rfl, ?_, fun empty => ?_, fun seals => ?_, fun full stop => ?_,
      fun full overwrite => ?_, fun unmarked => ?_, fun armed on clean => ?_⟩
    · by_cases free : (u.setSlot i (x.stored h time)).halfFree i h.other
      · rw [(takes free).1]
        simp
      · rw [(stalls free).1]
        simp [SlotLive.cleared]
    · obtain ⟨live, cleared⟩ := takes (.inl (other ▸ empty))
      exact ⟨by rw [live]; rfl, by rw [live], cleared⟩
    · exact (stalls (by simp [State.halfFree, other, seals])).1
    · exact (stalls (by simp [State.halfFree, other, full, stop])).1
    · obtain ⟨live, cleared⟩ := takes (.inr ⟨other ▸ full, policy ▸ overwrite⟩)
      obtain ⟨index, pending⟩ := complete_of_full (other ▸ full) (policy ▸ overwrite)
      exact ⟨by rw [live], cleared, by rw [sample, index, ← capture]; rfl, sample ▸ pending⟩
    · by_cases free : (u.setSlot i (x.stored h time)).halfFree i h.other
      · have unmarked := unmarked.resolve_left fun stalled => by simp [(takes free).1, SlotLive.cleared] at stalled
        rw [sample]
        exact (complete_marks free).1 (capture ▸ unmarked)
      · exact (stalls free).2
    · have free : (u.setSlot i (x.stored h time)).halfFree i h.other := by
        by_contra held
        rw [(stalls held).1] at armed
        simp [SlotLive.cleared] at armed
      have arrives := (complete_marks free).2 (by rw [← on, ← capture]; rfl) clean
        { u with slots := t.slots, ctl := { u.ctl with dirty := u.ctl.dirty.set word true } } (by rw [sample]) rfl rfl rfl
      rwa [← sample] at arrives
end

section
/-! SUPPORT. SlotWriteIsTakenWholeOrRefused: the fields of a slot's configuration words, and the table a WRITE to space 3 leaves (R53 to
R55, R184). -/

namespace Sys2Proof.Machine

theorem writesSlot_iff (r : Request) (i : Fin 8) :
    writesSlot r i = true ↔ ∃ k, k < 3 ∧ (r.covered (16 * i.val + k)).isSome = true := by
  have range : [0, 1, 2] = List.range 3 := rfl
  simp [writesSlot, range]

/-- A field of so many bits that is tested for 1 is the bit. -/
theorem ite_bits_one {α : Type} (w : MgmtWord) (k : Nat) (a b : α) :
    (if bits w k 1 = 1 then a else b) = if w.getLsbD k then a else b := by
  rw [← bits_one w k]
  simp only [decide_eq_true_eq]

/-- The configuration with the words carried, field by field (11.4, R184). -/
theorem slotConfig_withWords (c : SlotConfig) (w0 w1 w2 : Option MgmtWord) :
    c.withWords w0 w1 w2 =
      { base := w0.elim c.base fun v => v.toNat % 32768 * 512
        size := w0.elim c.size fun v => v.toNat / 32768 % 1024 * 512
        pre := w0.elim (c.pre / 65536) (fun v => v.toNat / 134217728 % 4) * 65536 + w1.elim (c.pre % 65536) fun v => v.toNat % 65536
        post :=
          w0.elim (c.post / 65536) (fun v => v.toNat / 536870912) * 65536 + w1.elim (c.post % 65536) fun v => v.toNat / 65536
        early := w2.elim c.early fun v => v.toNat % 256
        retrigger := w0.elim c.retrigger fun v => if v.getLsbD 25 then .extend else .ignore
        full := w0.elim c.full fun v => if v.getLsbD 26 then .overwrite else .stop } := by
  have top3 : ∀ v : MgmtWord, bits v 29 3 = v.toNat / 536870912 := fun v => by
    have := v.isLt
    simp only [bits]
    omega
  have top16 : ∀ v : MgmtWord, bits v 16 16 = v.toNat / 65536 := fun v => by
    have := v.isLt
    simp only [bits]
    omega
  simp only [SlotConfig.withWords, carried_eq_elim, ite_bits_one, top3, top16, high]
  simp [bits]

/-- A slot of which no configuration word is covered keeps its configuration. -/
theorem unwritten_slot {r : Request} {i : Fin 8} (h : ¬ writesSlot r i = true) (s : State) :
    writtenSlot r s i = (s.slot i).config := by
  have uncovered : ∀ k, k < 3 → r.covered (16 * i.val + k) = none := fun k lt => by
    simpa using fun some => h ((writesSlot_iff r i).mpr ⟨k, lt, some⟩)
  have zero : r.covered (16 * i.val) = none := uncovered 0 (by decide)
  have whole : ∀ n, n / 65536 * 65536 + n % 65536 = n := fun n => by omega
  simp [writtenSlot, slotConfig_withWords, zero, uncovered, whole]

theorem slot_of_writtenSlots {r : Request} {s t : State} (h : t.slots = writtenSlots r s) (i : Fin 8) :
    t.slot i = { s.slot i with config := writtenSlot r s i } := by
  rw [slot_writtenSlots h]
  split
  · rfl
  · rename_i unwritten
    rw [unwritten_slot unwritten s]

/-- A WRITE to space 3 is answered as its owner answers. -/
theorem answersWith_of_writeSlots {s u : State} {i : Fin 4} {q : Taken} {status : Status} (h : s.runsWrite 3 i q)
    (owner : writeSlots q.request s = (u, .answer status [])) : answersWith .writeSlot s u i q status [] := by
  obtain ⟨run, space, -⟩ := runWrite_of_runsWrite h
  obtain ⟨now, form, -⟩ := h
  refine ⟨_, rfl, execute_answers now form ?_⟩
  rw [run, writeOwner, space]
  exact owner

end Sys2Proof.Machine

open Sys2Proof Sys2Proof.Machine

/-- Settles O47: the configuration a slot is to have, the checks in their order, and the table written whole. -/
theorem slotWriteIsTakenWholeOrRefused : Obligations.SlotWriteIsTakenWholeOrRefused := by
  intro s i q runs carries written after meets locked
  have afterIs : ∀ j, after j = writtenSlot q.request s j := fun j => (slotConfig_withWords _ _ _ _).symm
  have writtenIff : ∀ j, written j ↔ writesSlot q.request j = true := fun j => (writesSlot_iff q.request j).symm
  have meetsIff : ∀ c, meets c ↔ c.valid = true := fun c => (valid_iff c).symm
  have lockedIff : ∀ j, locked j ↔ (s.slot j).locked = true := fun j => (locked_iff (s.slot j)).symm
  simp only [writtenIff, meetsIff, lockedIff, afterIs]
  refine ⟨fun ⟨j, covered, broken⟩ => ?_, fun good ⟨j, covered, held⟩ => ?_, fun good free => ?_⟩
  · exact answersWith_of_writeSlots runs (writeSlots_of_badValue fun passed => broken (passed j covered))
  · exact answersWith_of_writeSlots runs (writeSlots_of_locked good covered held)
  · exact ⟨_, answersWith_of_writeSlots runs (writeSlots_of_unlocked good fun j covered => by simpa using free j covered),
      slot_of_writtenSlots rfl, rfl⟩
end

section
/-! SUPPORT. GateFaultAndMemoryCommandsAct: GATE by its argument, and the commands that take none (R76, R119, R121, R167). -/

namespace Sys2Proof.Machine

theorem gateArg_of_byte {a : MgmtWord} :
    (a.toNat % 256 = 0 → gateArg a = some false) ∧ (a.toNat % 256 = 1 → gateArg a = some true) ∧
      (2 ≤ a.toNat % 256 → gateArg a = none) := by
  simp only [gateArg, bits_byte]
  refine ⟨fun h => by simp [h], fun h => by simp [h], fun h => ?_⟩
  split <;> simp_all

/-- GATE is answered as its owner answers for the argument. -/
theorem execute_gate {s u : State} {i : Fin 4} {q : Taken} {status : Status} (h : s.runsCommand 7 i q)
    (owner : withArg gateArg setGate i q.request s = (u, .answer status [])) :
    answersWith .gate s u i q status [] :=
  ⟨_, rfl, execute_answers h.1 (asksFor_of_runsCommand h) owner⟩

/-- A COMMAND without an argument is answered as its owner answers. -/
theorem execute_plainCommand {s u : State} {code : Nat} {i : Fin 4} {q : Taken} {status : Status}
    {run : State → State × Reply} (h : s.runsCommand code i q) (owner : run s = (u, .answer status [])) :
    Responded u (execute (Request.asksFor code) (withoutArg run) s) i q status [] :=
  execute_answers h.1 (asksFor_of_runsCommand h) owner

theorem memStart_of_uninit {s : State} (h : s.ctl.state = .uninit) :
    memStart s =
      ({ s with ctl := { s.ctl with state := .init, effect := s.ctl.written, op := some .initSequence } }, .answer .ok []) := by
  simp only [memStart, h, if_true, acceptedWith]

theorem memStart_of_started {s : State} (h : s.ctl.state ≠ .uninit) : memStart s = (s, .answer .wrongState []) := by
  simp only [memStart, h, if_false, refusedWith]

theorem recording_iff (s : State) :
    s.recording = true ↔ ∃ j, (s.slot j).live.state = .armed ∨ (s.slot j).live.state = .post := by
  simp [State.recording]

theorem memHold_of_notReady {s : State} (h : s.ctl.state = .uninit ∨ s.ctl.state = .init ∨ s.ctl.state = .exiting) :
    memHold s = (s, .answer .wrongState []) := by
  rcases h with h | h | h <;> simp only [memHold, h, refusedWith]

/-- A memory that enters HOLD, or is there, is asked for nothing more. -/
theorem memHold_of_entered {s : State} (h : s.ctl.state = .entering ∨ s.ctl.state = .hold) :
    memHold s = (s, .answer .ok []) := by
  rcases h with h | h <;> simp only [memHold, h, acceptedWith]

theorem memHold_of_recording {s : State} (h : s.ctl.state = .ready) (r : s.recording = true) :
    memHold s = (s, .answer .wrongState []) := by
  simp only [memHold, h, r, if_true, refusedWith]

/-- The hold request is set, and in ENTERING the arbiter chooses (R121, R122). -/
theorem memHold_of_ready {s : State} (h : s.ctl.state = .ready) (r : ¬ s.recording = true) :
    memHold s = (chooseMem { s with ctl := { s.ctl with holdRequest := true, state := .entering } }, .answer .ok []) := by
  simp only [memHold, h, r, acceptedWith]
  rfl

end Sys2Proof.Machine

open Sys2Proof Sys2Proof.Machine

/-- Settles O55: GATE by its argument, the two memory commands by the state of the memory. -/
theorem gateFaultAndMemoryCommandsAct : Obligations.GateFaultAndMemoryCommandsAct := by
  intro s i q arg
  refine ⟨fun runs => ?_, fun runs => ?_, fun runs => ?_, fun runs => ?_⟩
  · obtain ⟨closes, opens, large⟩ := gateArg_of_byte (a := q.request.argument)
    refine ⟨fun h => execute_gate runs ?_, fun h => execute_gate runs ?_, fun h => execute_gate runs ?_⟩
    · rw [withArg, closes h]
      rfl
    · rw [withArg, opens h]
      rfl
    · rw [withArg, large h]
      rfl
  · exact ⟨_, rfl, execute_plainCommand runs rfl⟩
  · exact ⟨fun uninit => ⟨_, rfl, execute_plainCommand runs (memStart_of_uninit uninit)⟩,
      fun started => ⟨_, rfl, execute_plainCommand runs (memStart_of_started started)⟩⟩
  · intro recording
    have recordingIff : recording ↔ s.recording = true := (recording_iff s).symm
    rw [recordingIff]
    exact ⟨fun notReady => ⟨_, rfl, execute_plainCommand runs (memHold_of_notReady notReady)⟩,
      fun entered => ⟨_, rfl, execute_plainCommand runs (memHold_of_entered entered)⟩,
      fun ready busy => ⟨_, rfl, execute_plainCommand runs (memHold_of_recording ready busy)⟩,
      fun ready quiet => ⟨_, rfl, execute_plainCommand runs (memHold_of_ready ready quiet)⟩⟩
end

section
/-! SUPPORT. DisarmSlotEmptiesOrTruncates: the four states a DISARM-SLOT can find, and the half that it gives up (R72, R75, R83, R84). -/

namespace Sys2Proof.Machine

/-! ## Whole-state frames of a raise, and of a half listed FULL -/

theorem raise_frame (c : Fin 8) (n : Fin 32) (s : State) : { raise c n s with notices := s.notices, link := s.link } = s :=
  congrArg (fun t : State => { t with notices := s.notices, link := s.link })
    (build_frame { s with notices := s.notices.withPending c n })

theorem raise_linkFrame (c : Fin 8) (n : Fin 32) (s : State) :
    { (raise c n s).link with dSending := s.link.dSending } = s.link :=
  build_linkFrame { s with notices := s.notices.withPending c n }

/-- From `s` to `t` nothing changes outside slots, capture, write queue, memory controller and notices but the frame being sent at
D-out, which a notice built may begin. -/
structure KeepsOutside (s t : State) : Prop where
  link : { t.link with dSending := s.link.dSending } = s.link
  rest : { t with
    slots := s.slots, capture := s.capture, queue := s.queue, ctl := s.ctl, notices := s.notices, link := s.link } = s

theorem KeepsOutside.refl (s : State) : KeepsOutside s s :=
  ⟨rfl, rfl⟩

theorem KeepsOutside.trans {s t u : State} (a : KeepsOutside s t) (b : KeepsOutside t u) : KeepsOutside s u :=
  ⟨(congrArg (fun l : LinkState => { l with dSending := s.link.dSending }) b.link).trans a.link,
    (congrArg (fun x : State => { x with
      slots := s.slots, capture := s.capture, queue := s.queue, ctl := s.ctl, notices := s.notices, link := s.link }) b.rest).trans
        a.rest⟩

theorem keepsOutside_raise (c : Fin 8) (n : Fin 32) (s : State) : KeepsOutside s (raise c n s) :=
  ⟨raise_linkFrame c n s, congrArg (fun t : State => { t with
    slots := s.slots, capture := s.capture, queue := s.queue, ctl := s.ctl }) (raise_frame c n s)⟩

theorem keepsOutside_markDirty (w : Fin 16) (s : State) : KeepsOutside s (markDirty w s) :=
  ⟨by simp, congrArg (fun t : State => { t with
    slots := s.slots, capture := s.capture, notices := s.notices, link := s.link }) (markDirty_frame w s)⟩

theorem keepsOutside_markQuietly (w : Fin 16) (s : State) : KeepsOutside s (markQuietly w s) :=
  ⟨by simp, congrArg (fun t : State => { t with
    slots := s.slots, capture := s.capture, notices := s.notices, link := s.link }) (markQuietly_frame w s)⟩

theorem keepsOutside_takeHalf (i : Fin 8) (h : Half) (s : State) : KeepsOutside s (takeHalf i h s) :=
  KeepsOutside.trans (t := activate i h s) ⟨rfl, rfl⟩ (keepsOutside_markDirty _ _)

theorem keepsOutside_armHalf (i : Fin 8) (h : Half) (s : State) : KeepsOutside s (armHalf i h s) :=
  KeepsOutside.trans (t := activate i h s) ⟨rfl, rfl⟩ (keepsOutside_markQuietly _ _)

theorem keepsOutside_reclaim (i : Fin 8) (h : Half) (s : State) : KeepsOutside s (reclaim i h s) :=
  KeepsOutside.trans (t := removeIndex i h s) ⟨rfl, rfl⟩ ((keepsOutside_takeHalf i h _).trans (keepsOutside_raise _ _ _))

theorem keepsOutside_armReclaim (i : Fin 8) (h : Half) (s : State) : KeepsOutside s (armReclaim i h s) :=
  KeepsOutside.trans (t := removeIndex i h s) ⟨rfl, rfl⟩ ((keepsOutside_armHalf i h _).trans (keepsOutside_raise _ _ _))

theorem keepsOutside_listFull (i : Fin 8) (h : Half) (s : State) : KeepsOutside s (listFull i h s) :=
  KeepsOutside.trans
    (t := { s.setRecord i h ((s.record i h).listed s.capture.counter) with
      capture := { s.capture with counter := s.capture.counter + 1, index := s.capture.index ++ [(i, h)] } })
    ⟨rfl, rfl⟩ (keepsOutside_raise _ _ _)

/-- CAPTURE-DONE is raised as a half is listed (R84). -/
theorem listFull_pending (i : Fin 8) (h : Half) (s : State) :
    (listFull i h s).notices.pending[classCaptureDone].getLsbD i.val = true :=
  raise_slot_pending i (by decide) _

/-- The slot after one of its halves has been listed. -/
theorem listFull_slot (i : Fin 8) (h : Half) (s : State) :
    (listFull i h s).slot i = (s.slot i).updated h ((s.record i h).listed s.capture.counter) (s.slot i).live ∧
      ∀ k, k ≠ i → (listFull i h s).slot k = s.slot k := by
  have slots := listFull_slots i h s
  rw [State.setRecord, setRecord_eq_updated] at slots
  exact slot_of_slots slots

theorem halfFull_of_kept {s : State} {i : Fin 8} (h : Half)
    (kept : ¬ ((s.slot i).live.state = .stalled ∧ (s.slot i).config.full = .overwrite)) : halfFull i h s = listFull i h s :=
  if_neg kept

theorem halfFull_of_reclaimed {s : State} {i : Fin 8} (h : Half)
    (reclaims : (s.slot i).live.state = .stalled ∧ (s.slot i).config.full = .overwrite) :
    halfFull i h s = reclaim i h (listFull i h s) :=
  if_pos reclaims

/-! ## Entries that wait (R82, R83) -/

theorem any_belongs (l : List QueueEntry) (i : Fin 8) (h : Half) :
    l.any (·.belongs i h) = true ↔ ∃ e ∈ l, e.slot = i ∧ e.half = h := by
  simp [QueueEntry.belongs]

theorem mem_burstEntries (c : MemCtl) (e : QueueEntry) :
    e ∈ c.burstEntries ↔ ∃ entries, c.op = some (.burst entries) ∧ e ∈ entries := by
  unfold MemCtl.burstEntries
  split
  · simp [*]
  · rename_i none
    simpa using fun entries op => absurd op (none entries)

theorem halfWaits_iff (s : State) (i : Fin 8) (h : Half) :
    s.halfWaits i h = true ↔ (∃ e ∈ s.queue, e.slot = i ∧ e.half = h) ∨
      ∃ entries, s.ctl.op = some (.burst entries) ∧ ∃ e ∈ entries, e.slot = i ∧ e.half = h := by
  simp only [State.halfWaits, Bool.or_eq_true, any_belongs, mem_burstEntries]
  refine or_congr_right ⟨fun ⟨e, ⟨l, op, m⟩, k⟩ => ⟨l, op, e, m, k⟩, fun ⟨l, op, e, m, k⟩ => ⟨e, ⟨l, op, m⟩, k⟩⟩

/-! ## A capture truncated (R72, R83, R84) -/

/-- The record of a capture that a DISARM-SLOT ends. -/
def Slot.truncatedEnd (x : Slot) (h : Half) : CaptureRecord :=
  (x.truncatedRecord h).ended x.live.lastStored

/-- The state in which the slot has given up the half, before it may become FULL. -/
def State.truncated (s : State) (i : Fin 8) (h : Half) : State :=
  s.setSlot i ((s.slot i).updated h ((s.slot i).truncatedEnd h) (SlotLive.cleared .idle))

theorem truncate_eq (i : Fin 8) (h : Half) (s : State) : truncate i h s = sealIfWritten i h (s.truncated i h) := by
  have slot : ((s.slot i).setRecord h ((s.slot i).truncatedRecord h)).sealed h =
      (s.slot i).updated h ((s.slot i).truncatedEnd h) { (s.slot i).live with active := none } := by
    rw [setRecord_eq_updated, sealed_eq, updated_updated, record_updated]
    rfl
  have rests : ∀ y : Slot, toRest i .idle (s.setSlot i y) = s.setSlot i (y.rested .idle) := fun y => by
    simp [toRest, State.setLive, Slot.rested]
  rw [truncate, slot, rests, rested_updated]
  rfl

/-- With entries still to be written the half stays SEALING. -/
theorem truncate_of_waiting {s : State} {i : Fin 8} {h : Half} (waits : s.halfWaits i h = true) :
    truncate i h s = s.truncated i h := by
  rw [truncate_eq]
  refine if_neg fun k => ?_
  simp [show (s.truncated i h).halfWaits i h = true from waits] at k

/-- With none the half is FULL at once. -/
theorem truncate_of_written {s : State} {i : Fin 8} {h : Half} (written : ¬ s.halfWaits i h = true) :
    truncate i h s = listFull i h (s.truncated i h) := by
  have here : (s.truncated i h).slot i = (s.slot i).updated h ((s.slot i).truncatedEnd h) (SlotLive.cleared .idle) :=
    slot_setSlot s i _
  have sealing : ((s.truncated i h).record i h).state = .sealing := by
    rw [State.record, here, record_updated]
    rfl
  rw [truncate_eq]
  refine (if_pos ⟨sealing, Bool.eq_false_iff.mpr written⟩).trans (halfFull_of_kept h ?_)
  simp [here, SlotLive.cleared]

/-- Either way the slot is IDLE, and of the truncated record only state and capture number can differ. -/
theorem truncate_slots (i : Fin 8) (h : Half) (s : State) :
    (∃ state number, (truncate i h s).slot i = (s.slot i).updated h
      { (s.slot i).truncatedEnd h with state := state, captureNumber := number } (SlotLive.cleared .idle)) ∧
      ∀ k, k ≠ i → (truncate i h s).slot k = s.slot k := by
  have here : (s.truncated i h).slot i = (s.slot i).updated h ((s.slot i).truncatedEnd h) (SlotLive.cleared .idle) :=
    slot_setSlot s i _
  have others : ∀ k, k ≠ i → (s.truncated i h).slot k = s.slot k := fun k n => slot_setSlot_ne s _ n
  by_cases waits : s.halfWaits i h = true
  · rw [truncate_of_waiting waits]
    exact ⟨⟨_, _, here⟩, others⟩
  · obtain ⟨listed, rest⟩ := listFull_slot i h (s.truncated i h)
    rw [State.record, here, updated_updated, record_updated] at listed
    rw [truncate_of_written waits]
    exact ⟨⟨_, _, listed⟩, fun k n => (rest k n).trans (others k n)⟩

/-- It touches neither queue nor controller, and outside slots and capture what a raise touches alone. -/
theorem truncate_frame (i : Fin 8) (h : Half) (s : State) :
    (truncate i h s).queue = s.queue ∧ (truncate i h s).ctl = s.ctl ∧
      { (truncate i h s).link with dSending := s.link.dSending } = s.link ∧
      { truncate i h s with slots := s.slots, capture := s.capture, notices := s.notices, link := s.link } = s := by
  by_cases waits : s.halfWaits i h = true
  · rw [truncate_of_waiting waits]
    exact ⟨rfl, rfl, rfl, rfl⟩
  · rw [truncate_of_written waits]
    obtain ⟨link, rest⟩ := KeepsOutside.trans (t := s.truncated i h) (s := s) ⟨rfl, rfl⟩ (keepsOutside_listFull i h _)
    have queue : (listFull i h (s.truncated i h)).queue = s.queue := by simp only [listFull_keeps]; rfl
    have ctl : (listFull i h (s.truncated i h)).ctl = s.ctl := by simp only [listFull_keeps]; rfl
    refine ⟨queue, ctl, link, ?_⟩
    rw [← queue, ← ctl] at rest
    exact rest

/-- What a truncated capture keeps of its counts, and the start it is given without a post sample. -/
theorem truncatedEnd_start {x : Slot} (h : Half) :
    (x.live.firstPostPending = false → (x.truncatedEnd h).start = (x.record h).start) ∧
      (x.live.firstPostPending = true →
        (x.truncatedEnd h).start = ringSub x.live.writePos (x.record h).preCount x.config.size) := by
  simp only [Slot.truncatedEnd, CaptureRecord.ended, Slot.truncatedRecord]
  exact ⟨fun later => by simp [later], fun first => by simp [first]⟩

/-! ## DISARM-SLOT by the state it finds (R75) -/

theorem disarmSlot_of_idle {s : State} {i : Fin 8} (idle : (s.slot i).live.state = .idle) :
    disarmSlot i s = (s, .answer .wrongState []) := by
  simp only [disarmSlot, idle, refusedWith]

theorem disarmSlot_of_stalled {s : State} {i : Fin 8} (stalled : (s.slot i).live.state = .stalled) :
    disarmSlot i s = (s.setSlot i { s.slot i with live := SlotLive.cleared .idle }, .answer .ok []) := by
  simp only [disarmSlot, stalled, acceptedWith]
  rfl

theorem disarmSlot_of_armed {s : State} {i : Fin 8} {h : Half} (armed : (s.slot i).live.state = .armed)
    (active : (s.slot i).live.active = some h) :
    disarmSlot i s = (markDirty (countWordOf i h)
      (s.setSlot i ((s.slot i).updated h (CaptureRecord.cleared .empty) (SlotLive.cleared .idle))), .answer .ok []) := by
  simp only [disarmSlot, armed, active, acceptedWith, emptyHalf, toRest_setRecord]

theorem disarmSlot_of_post {s : State} {i : Fin 8} {h : Half} (post : (s.slot i).live.state = .post)
    (active : (s.slot i).live.active = some h) : disarmSlot i s = (truncate i h s, .answer .ok []) := by
  simp only [disarmSlot, post, active, acceptedWith]

end Sys2Proof.Machine

open Sys2Proof Sys2Proof.Machine

/-- Settles O52: the slot's state decides, and from POST whether an entry of the half still waits. -/
theorem disarmSlotEmptiesOrTruncates : Obligations.DisarmSlotEmptiesOrTruncates := by
  intro s i q runs arg
  refine ⟨fun large => ⟨_, rfl, execute_slotCommand_of_large runs large⟩, fun j named => ?_⟩
  intro x
  refine ⟨fun idle => ?_, fun stalled => ?_, fun h armed active => ?_, fun h post active => ?_⟩
  · exact ⟨_, rfl, execute_slotCommand runs named (disarmSlot_of_idle idle)⟩
  · exact ⟨_, rfl, execute_slotCommand runs named (disarmSlot_of_stalled stalled)⟩
  · refine ⟨_, ⟨_, rfl, execute_slotCommand runs named (disarmSlot_of_armed armed active)⟩, by simp only [markDirty_keeps]; rfl, fun off => ?_, ?_⟩
    · rw [markDirty_of_off _ (by exact off)]
      exact ⟨rfl, rfl⟩
    · exact congrArg (fun t : State => { t with slots := s.slots, ctl := s.ctl, queue := s.queue })
        (markDirty_frame (countWordOf j h) (s.setSlot j (x.updated h (CaptureRecord.cleared .empty) (SlotLive.cleared .idle))))
  · intro r waits
    have waitsIff : waits ↔ s.halfWaits j h = true := (halfWaits_iff s j h).symm
    obtain ⟨⟨state, number, here⟩, others⟩ := truncate_slots j h s
    obtain ⟨queue, ctl, link, frame⟩ := truncate_frame j h s
    obtain ⟨later, first⟩ := truncatedEnd_start (x := x) h
    have record : (truncate j h s).record j h = { x.truncatedEnd h with state := state, captureNumber := number } := by
      rw [State.record, here, record_updated]
    refine ⟨_, ⟨_, rfl, execute_slotCommand runs named (disarmSlot_of_post post active)⟩, by rw [here]; rfl, others,
      by rw [record]; rfl, by rw [record]; rfl, by rw [record]; rfl, by rw [record]; rfl, by rw [record]; rfl,
      fun isLater => by rw [record]; exact later isLater, fun isFirst pos fits => ?_, ?_, fun waiting => ?_, fun written => ?_,
      queue, ctl, link, frame⟩
    · rw [record, first isFirst]
      exact ringSub_spec pos fits
    · rw [State.record, here, record_updated_other, State.record]
    · rw [truncate_of_waiting (waitsIff.mp waiting)]
      exact ⟨by simp [State.record, State.truncated, Slot.truncatedEnd, CaptureRecord.ended], rfl, rfl⟩
    · rw [truncate_of_written fun k => written (waitsIff.mpr k)]
      obtain ⟨listed, -⟩ := listFull_slot j h (s.truncated j h)
      exact ⟨by rw [State.record, listed, record_updated]; rfl, by rw [State.record, listed, record_updated]; rfl,
        listFull_capture j h (s.truncated j h), listFull_pending j h _⟩
end

section
/-! SUPPORT. ArmSlotTakesAHalf: the checks of ARM-SLOT as the rules word them, the half it takes, and what it leaves of the memory
controller (R58 to R60, R73, R95, R124, R125). -/

namespace Sys2Proof.Machine

/-! ## The checks (R58, R59) -/

/-- The slot's memory overlaps that of a slot in use, or the count table (R59). -/
theorem overlapFails_iff (s : State) (i : Fin 8) :
    s.overlapFails i = true ↔
      (∃ k, k ≠ i ∧ ((s.slot k).live.state ≠ .idle ∨ ∃ h, (s.record k h).state = .sealing ∨ (s.record k h).state = .full) ∧
        (s.slot i).config.base < (s.slot k).config.base + 2 * (s.slot k).config.size ∧
          (s.slot k).config.base < (s.slot i).config.base + 2 * (s.slot i).config.size) ∨
      (s.capture.tableOn = true ∧ (s.slot i).config.base < s.capture.tableBase.toNat + 16 ∧
        s.capture.tableBase.toNat < (s.slot i).config.base + 2 * (s.slot i).config.size) := by
  have share : ∀ x y : Region, overlaps x y = true ↔ x.1 < y.1 + y.2 ∧ y.1 < x.1 + x.2 := fun x y => by simp [overlaps]
  simp only [State.overlapFails, share, SlotConfig.region, Bool.or_eq_true, any_finRange, Bool.and_eq_true, decide_eq_true_eq,
    locked_iff, and_assoc]
  exact Iff.rfl

theorem armSlot_of_working {i : Fin 8} {s : State} (works : (s.slot i).live.state ≠ .idle) :
    armSlot i s = (s, .answer .wrongState []) := by
  have checks : armChecks i s = some .wrongState := if_pos works
  rw [armSlot, checks]
  rfl

theorem armSlot_of_unbound {i : Fin 8} {s : State} (idle : (s.slot i).live.state = .idle) (unbound : ¬ s.slotBound i = true) :
    armSlot i s = (s, .answer .badValue []) := by
  have checks : armChecks i s = some .badValue := by simp [armChecks, idle, unbound]
  rw [armSlot, checks]
  rfl

theorem armSlot_of_uninit {i : Fin 8} {s : State} (idle : (s.slot i).live.state = .idle) (bound : s.slotBound i = true)
    (uninit : s.ctl.state = .uninit) : armSlot i s = (s, .answer .notReady []) := by
  have checks : armChecks i s = some .notReady := by simp [armChecks, idle, bound, uninit]
  rw [armSlot, checks]
  rfl

theorem armSlot_of_overlap {i : Fin 8} {s : State} (idle : (s.slot i).live.state = .idle) (bound : s.slotBound i = true)
    (started : s.ctl.state ≠ .uninit) (overlap : s.overlapFails i = true) : armSlot i s = (s, .answer .badValue []) := by
  have checks : armChecks i s = some .badValue := by simp [armChecks, idle, bound, started, overlap]
  rw [armSlot, checks]
  rfl

theorem armSlot_of_passed {i : Fin 8} {s : State} (idle : (s.slot i).live.state = .idle) (bound : s.slotBound i = true)
    (started : s.ctl.state ≠ .uninit) (clear : ¬ s.overlapFails i = true) :
    armSlot i s = (armTakes i (withdrawHold s), .answer .ok []) := by
  have checks : armChecks i s = none := by simp [armChecks, idle, bound, started, clear]
  rw [armSlot, checks]
  rfl

/-! ## The half taken (R60, R73) -/

theorem armTakes_of_a {i : Fin 8} {s : State} (a : (s.record i .a).state = .empty) : armTakes i s = armHalf i .a s :=
  if_pos a

theorem armTakes_of_b {i : Fin 8} {s : State} (a : (s.record i .a).state ≠ .empty) (b : (s.record i .b).state = .empty) :
    armTakes i s = armHalf i .b s :=
  (if_neg a).trans (if_pos b)

theorem armTakes_of_older {i : Fin 8} {h : Half} {s : State} (a : (s.record i .a).state ≠ .empty)
    (b : (s.record i .b).state ≠ .empty) (policy : (s.slot i).config.full = .overwrite) (older : s.olderFull i = some h) :
    armTakes i s = armReclaim i h s := by
  simp only [armTakes, a, b, policy, older, if_false]

/-- Under STOP, or with no half of its own in the index, the slot goes to STALLED. -/
theorem armTakes_of_none {i : Fin 8} {s : State} (a : (s.record i .a).state ≠ .empty) (b : (s.record i .b).state ≠ .empty)
    (unlisted : (s.slot i).config.full = .stop ∨ s.olderFull i = none) : armTakes i s = toRest i .stalled s := by
  rw [armTakes, if_neg a, if_neg b]
  rcases unlisted with stop | unlisted
  · simp only [stop]
  · cases policy : (s.slot i).config.full <;> simp only [unlisted]

/-- The older FULL half is the first of the slot's in the index. -/
theorem olderFull_of_first {s : State} {i : Fin 8} {h : Half} {before after : List (Fin 8 × Half)}
    (index : s.capture.index = before ++ (i, h) :: after) (first : ∀ e ∈ before, e.1 ≠ i) : s.olderFull i = some h := by
  have skipped : before.find? (fun e => decide (e.1 = i)) = none := by simpa using first
  simp [State.olderFull, index, List.find?_append, skipped]

theorem olderFull_of_none {s : State} {i : Fin 8} (absent : ∀ e ∈ s.capture.index, e.1 ≠ i) : s.olderFull i = none := by
  simpa [State.olderFull] using absent

/-- Whatever half is taken, it is taken as by `armHalf`, with or without an entry leaving the index; else the slot is STALLED. -/
theorem armTakes_cases (i : Fin 8) (s : State) :
    (∃ h b, (b = s ∨ b = removeIndex i h s) ∧ (armTakes i s).slots = (s.setSlot i ((s.slot i).taken h)).slots ∧
      (armTakes i s).queue = (armHalf i h b).queue ∧ (armTakes i s).ctl = (armHalf i h b).ctl) ∨
      armTakes i s = toRest i .stalled s := by
  unfold armTakes
  split
  · exact .inl ⟨_, s, .inl rfl, armHalf_slots i _ s, rfl, rfl⟩
  · split
    · exact .inl ⟨_, s, .inl rfl, armHalf_slots i _ s, rfl, rfl⟩
    · split
      · exact .inl ⟨_, _, .inr rfl, armReclaim_slots i _ s, by simp [armReclaim], by simp [armReclaim]⟩
      · exact .inr rfl
      · exact .inr rfl

/-! ## The memory controller (R95, R124, R125) -/

/-- The mark of an ARM-SLOT moves neither the memory's state nor the hold request. -/
theorem markQuietly_ctl (w : Fin 16) (s : State) :
    (markQuietly w s).ctl.state = s.ctl.state ∧ (markQuietly w s).ctl.holdRequest = s.ctl.holdRequest := by
  unfold markQuietly
  split
  · simp [setMark]
  · exact ⟨rfl, rfl⟩

theorem armTakes_ctl (i : Fin 8) (s : State) :
    (armTakes i s).ctl.state = s.ctl.state ∧ (armTakes i s).ctl.holdRequest = s.ctl.holdRequest := by
  rcases armTakes_cases i s with ⟨h, b, from_s, -, -, ctl⟩ | rests
  · rw [ctl]
    rcases from_s with rfl | rfl <;> exact markQuietly_ctl _ _
  · rw [rests]
    exact ⟨rfl, rfl⟩

/-- In HOLD the half's mark is set with the table on, and nothing else happens to controller and queue. -/
theorem armHalf_of_hold {i : Fin 8} {h : Half} {s : State} (hold : s.ctl.state = .hold) :
    (armHalf i h s).queue = s.queue ∧ (armHalf i h s).ctl =
      { s.ctl with
        dirty := if s.capture.tableOn = true then s.ctl.dirty.set (countWordOf i h) true else s.ctl.dirty } := by
  by_cases on : s.capture.tableOn = true
  · rw [armHalf, markQuietly_of_hold _ (by exact on) (by exact hold)]
    simp only [on, if_true]
    exact ⟨rfl, rfl⟩
  · rw [armHalf, markQuietly_of_off _ (by simpa using on)]
    simp only [on]
    exact ⟨rfl, rfl⟩

/-- What an ARM-SLOT leaves of queue and controller in HOLD, by the half that the slot then has. -/
theorem armTakes_of_hold {i : Fin 8} {s : State} (hold : s.ctl.state = .hold) :
    (armTakes i s).queue = s.queue ∧ { (armTakes i s).ctl with dirty := s.ctl.dirty } = s.ctl ∧
      (∀ h, ((armTakes i s).slot i).live.active = some h → s.capture.tableOn = true →
        (armTakes i s).ctl.dirty = s.ctl.dirty.set (countWordOf i h) true) ∧
      (((armTakes i s).slot i).live.active = none ∨ s.capture.tableOn = false → (armTakes i s).ctl.dirty = s.ctl.dirty) := by
  rcases armTakes_cases i s with ⟨h, b, from_s, slots, queue, ctl⟩ | rests
  · have same : b.ctl = s.ctl ∧ b.queue = s.queue ∧ b.capture.tableOn = s.capture.tableOn := by
      rcases from_s with rfl | rfl <;> exact ⟨rfl, rfl, rfl⟩
    obtain ⟨sameCtl, sameQueue, sameTable⟩ := same
    obtain ⟨heldQueue, heldCtl⟩ := armHalf_of_hold (i := i) (h := h) (s := b) (sameCtl ▸ hold)
    have active : ((armTakes i s).slot i).live.active = some h := by
      rw [(slot_of_slots slots).1]
      rfl
    rw [queue, ctl, heldQueue, heldCtl, active, sameCtl, sameTable]
    refine ⟨sameQueue, rfl, fun k e on => ?_, fun off => ?_⟩
    · cases Option.some.inj e
      simp only [on, if_true]
    · simp [off.resolve_left (by simp)]
  · rw [rests, slot_toRest]
    exact ⟨rfl, rfl, fun h e => absurd e (by simp [Slot.rested, SlotLive.cleared]), fun _ => rfl⟩

/-- Outside ENTERING the withdrawn request is all that changes (R125). -/
theorem withdrawHold_of_settled {s : State} (h : s.ctl.state ≠ .entering) :
    withdrawHold s = { s with ctl := { s.ctl with holdRequest := false } } := by
  simp only [withdrawHold, h, if_false]

/-! ## What else stays -/

theorem keepsOutside_armTakes (i : Fin 8) (s : State) : KeepsOutside s (armTakes i s) := by
  unfold armTakes
  split
  · exact keepsOutside_armHalf i _ s
  · split
    · exact keepsOutside_armHalf i _ s
    · split
      · exact keepsOutside_armReclaim i _ s
      · exact ⟨rfl, rfl⟩
      · exact ⟨rfl, rfl⟩

end Sys2Proof.Machine

open Sys2Proof Sys2Proof.Machine

/-- Settles O51: the checks in their order, then the half taken by the state of both and the policy. -/
theorem armSlotTakesAHalf : Obligations.ArmSlotTakesAHalf := by
  intro s i q runs arg
  refine ⟨fun large => ⟨_, rfl, execute_slotCommand_of_large runs large⟩, fun j named => ?_⟩
  intro x bound overlap inUse overlaps takes
  have boundIff : bound ↔ s.slotBound j = true := (slotBound_iff s j).symm
  have overlapsIff : overlaps ↔ s.overlapFails j = true := (overlapFails_iff s j).symm
  simp only [boundIff, overlapsIff]
  refine ⟨fun works => ⟨_, rfl, execute_slotCommand runs named (armSlot_of_working works)⟩,
    fun idle unbound => ⟨_, rfl, execute_slotCommand runs named (armSlot_of_unbound idle unbound)⟩,
    fun idle bound uninit => ⟨_, rfl, execute_slotCommand runs named (armSlot_of_uninit idle bound uninit)⟩,
    fun idle bound started shared => ⟨_, rfl, execute_slotCommand runs named (armSlot_of_overlap idle bound started shared)⟩,
    fun idle bound started clear => ⟨armTakes j (withdrawHold s),
      ⟨_, rfl, execute_slotCommand runs named (armSlot_of_passed idle bound started clear)⟩, ?_⟩⟩
  obtain ⟨state, request⟩ := armTakes_ctl j (withdrawHold s)
  obtain ⟨link, frame⟩ := keepsOutside_armTakes j (withdrawHold s)
  refine ⟨request, fun entering => ?_, fun settled => ?_, fun hold => ?_, fun a => ?_, fun a b => ?_, fun a b stop => ?_,
    fun a b overwrite => ⟨fun before h after index first => ?_, fun absent => ?_⟩, fun k n => armTakes_slot_ne _ n, link, ?_⟩
  · exact state.trans (if_pos entering)
  · exact state.trans (if_neg settled)
  · have awake : s.ctl.state ≠ .entering := by simp [hold]
    have still : (withdrawHold s).ctl.state = .hold := by simpa [withdrawHold_of_settled awake] using hold
    obtain ⟨queue, ctl, marked, unmarked⟩ := armTakes_of_hold (i := j) still
    refine ⟨queue, ?_, marked, unmarked⟩
    rw [withdrawHold_of_settled awake] at ctl ⊢
    exact congrArg (fun c : MemCtl => { c with holdRequest := s.ctl.holdRequest }) ctl
  · rw [armTakes_of_a (s := withdrawHold s) a]
    exact ⟨(slot_of_slots (armHalf_slots j .a (withdrawHold s))).1, by simp, by simp⟩
  · rw [armTakes_of_b (s := withdrawHold s) a b]
    exact ⟨(slot_of_slots (armHalf_slots j .b (withdrawHold s))).1, by simp, by simp⟩
  · rw [armTakes_of_none (s := withdrawHold s) a b (.inl stop), slot_toRest]
    exact ⟨rfl, rfl, rfl⟩
  · rw [armTakes_of_older (s := withdrawHold s) a b overwrite (olderFull_of_first index first)]
    exact ⟨(slot_of_slots (armReclaim_slots j h (withdrawHold s))).1, armReclaim_capture j h (withdrawHold s),
      raise_slot_pending j (by decide) _⟩
  · rw [armTakes_of_none (s := withdrawHold s) a b (.inr (olderFull_of_none absent)), slot_toRest]
    rfl
  · exact congrArg (fun t : State => { t with ctl := s.ctl }) frame
end

section
/-! SUPPORT. BurstEndWritesItsWordsAndMayFillItsHalf: the words and rows a burst leaves, the marks that wait at a busy port, and the half
that becomes FULL (R74, R83, R84, R95, R102, R105, R107). -/

namespace Sys2Proof.Machine

/-! ## The words of a burst (R102) -/

/-- An entry's value stands in memory when no later entry has its address. -/
theorem read_writeBurst_last (m : Memory) {f : QueueEntry} (before : List QueueEntry) {after : List QueueEntry}
    (last : ∀ g ∈ after, g.address ≠ f.address) : (m.writeBurst (before ++ f :: after)).read f.address = some f.value := by
  have split : m.writeBurst (before ++ f :: after) = ((m.writeBurst before).write f.address f.value).writeBurst after := by
    simp [Memory.writeBurst]
  rw [split, read_writeBurst_ne _ _ _ last, read_write]

/-! ## The rows open after accesses (R105) -/

@[simp] theorem openRow_here (b : Banks) (a : MemAddr) : (openRow b a)[bankOf a] = some (rowOf a) := by
  simp [openRow]

theorem openRow_ne (b : Banks) {a : MemAddr} {k : Fin 4} (n : bankOf a ≠ k) : (openRow b a)[k] = b[k] := by
  have n : (bankOf a).val ≠ k.val := fun e => n (Fin.ext e)
  simp [openRow, Vector.getElem_set_ne _ _ n]

theorem openRows_ne (b : Banks) {l : List MemAddr} {k : Fin 4} (n : ∀ a ∈ l, bankOf a ≠ k) : (openRows b l)[k] = b[k] := by
  induction l generalizing b with
  | nil => rfl
  | cons a l ih =>
    have rest := ih (openRow b a) fun c m => n c (List.mem_cons_of_mem a m)
    exact rest.trans (openRow_ne b (n a List.mem_cons_self))

/-- A bank keeps the last row touched. -/
theorem openRows_last (b : Banks) {a : MemAddr} (before : List MemAddr) {after : List MemAddr}
    (last : ∀ c ∈ after, bankOf c ≠ bankOf a) : (openRows b (before ++ a :: after))[bankOf a] = some (rowOf a) := by
  have split : openRows b (before ++ a :: after) = openRows (openRow (openRows b before) a) after := by
    simp [openRows]
  rw [split, openRows_ne _ last, openRow_here]

/-! ## Marks at a busy port (R95, R107) -/

/-- An arrival at a busy port changes no mark and leaves the port busy, in HOLD too. -/
theorem workArrives_marks {s : State} (busy : s.ctl.op ≠ none) :
    (workArrives s).ctl.dirty = s.ctl.dirty ∧ (workArrives s).ctl.op ≠ none := by
  by_cases hold : s.ctl.state = .hold
  · rw [workArrives_of_hold hold]
    exact ⟨rfl, by simp [beginExit]⟩
  · rw [workArrives_of_busy busy hold]
    exact ⟨rfl, busy⟩

theorem markDirty_marks {s : State} (w : Fin 16) (busy : s.ctl.op ≠ none) :
    (s.capture.tableOn = true → (markDirty w s).ctl.dirty[w] = true) ∧ (markDirty w s).ctl.op ≠ none := by
  unfold markDirty
  split
  · obtain ⟨dirty, op⟩ := workArrives_marks (s := setMark w s) busy
    exact ⟨fun _ => by simp only [dirty]; simp [setMark], op⟩
  · rename_i unmarked
    exact ⟨fun on => by simpa [on] using unmarked, busy⟩

/-- Outside HOLD a mark set at a busy port waits, and nothing else changes. -/
theorem markDirty_of_busy {s : State} (w : Fin 16) (busy : s.ctl.op ≠ none) (awake : s.ctl.state ≠ .hold) :
    markDirty w s = if s.capture.tableOn = true then setMark w s else s := by
  unfold markDirty
  by_cases on : s.capture.tableOn = true
  · cases set : s.ctl.dirty[w] with
    | true => simp [on, setMark_of_set w set]
    | false =>
      simp only [on, and_self, if_true]
      exact workArrives_of_busy (s := setMark w s) busy awake
  · simp [on]

/-- A choice of the arbiter leaves a mark set or begins its count word's write (R108, R115). -/
theorem chooseMem_mark {s : State} {w : Fin 16} (set : s.ctl.dirty[w] = true) :
    (chooseMem s).ctl.dirty[w] = true ∨ ∃ a v, (chooseMem s).ctl.op = some (.countWrite w a v) := by
  have counts : ∀ v : Fin 16, (beginCountWrite v s).ctl.dirty[w] = true ∨
      ∃ a x, (beginCountWrite v s).ctl.op = some (.countWrite w a x) := fun v => by
    by_cases e : v = w
    · exact .inr ⟨_, _, by rw [e]; rfl⟩
    · have ne : v.val ≠ w.val := fun k => e (Fin.ext k)
      exact .inl (by simpa [beginCountWrite, Vector.getElem_set_ne _ _ ne] using set)
  unfold chooseMem beginWork
  split
  · (repeat' split)
    case h_1 => exact counts _
    all_goals exact .inl set
  · exact .inl set

/-! ## A half that becomes FULL at a busy port (R74, R84) -/

theorem halfFull_pending (i : Fin 8) (h : Half) (s : State) :
    (halfFull i h s).notices.pending[classCaptureDone].getLsbD i.val = true := by
  unfold halfFull
  split
  · refine raise_keeps_pending ?_
    simpa [removeIndex] using listFull_pending i h s
  · exact listFull_pending i h s

theorem keepsOutside_halfFull (i : Fin 8) (h : Half) (s : State) : KeepsOutside s (halfFull i h s) := by
  unfold halfFull
  split
  · exact (keepsOutside_listFull i h s).trans (keepsOutside_reclaim i h _)
  · exact keepsOutside_listFull i h s

/-- The count table's settings stay. -/
theorem halfFull_tableOn (i : Fin 8) (h : Half) (s : State) : (halfFull i h s).capture.tableOn = s.capture.tableOn := by
  unfold halfFull
  split
  · rw [reclaim_capture, listFull_capture]
  · rw [listFull_capture]

/-- A half that becomes FULL touches its own slot's record of it, and the live fields by a reclaim. -/
theorem halfFull_slots (i : Fin 8) (h : Half) (s : State) :
    ∃ r l, (halfFull i h s).slots = (s.setSlot i ((s.slot i).updated h r l)).slots := by
  have listed := listFull_slots i h s
  rw [State.setRecord, setRecord_eq_updated] at listed
  unfold halfFull
  split
  · refine ⟨CaptureRecord.cleared .active, { SlotLive.cleared .armed with active := some h }, (reclaim_slots i h _).trans ?_⟩
    rw [setSlot_slots_congr listed, setSlot_setSlot, (slot_of_slots listed).1, Slot.taken, updated_updated]
  · exact ⟨_, _, listed⟩

/-- The memory controller with the mark of a count word set, if the count table is on (R95). -/
def State.markedCtl (s : State) (w : Fin 16) : MemCtl :=
  { s.ctl with dirty := if s.capture.tableOn = true then s.ctl.dirty.set w true else s.ctl.dirty }

/-- A mark set once more is the same mark. -/
theorem markedCtl_of_marked {s u : State} {w : Fin 16} (table : u.capture.tableOn = s.capture.tableOn)
    (ctl : u.ctl = s.ctl ∨ u.ctl = s.markedCtl w) : u.markedCtl w = s.markedCtl w := by
  rcases ctl with same | marked
  · simp only [State.markedCtl, table, same]
  · by_cases on : s.capture.tableOn = true
    · simp only [State.markedCtl, table, marked, on, if_true, Vector.set_set]
    · simp only [State.markedCtl, table, marked, if_neg on]

theorem markDirty_waits {s : State} (w : Fin 16) (busy : s.ctl.op ≠ none) (awake : s.ctl.state ≠ .hold) :
    (markDirty w s).queue = s.queue ∧ (markDirty w s).ctl = s.markedCtl w := by
  rw [markDirty_of_busy w busy awake]
  by_cases on : s.capture.tableOn = true
  · simp [on, setMark, State.markedCtl]
  · simp [on, State.markedCtl]

theorem halfFull_waits {s : State} (i : Fin 8) (h : Half) (busy : s.ctl.op ≠ none) (awake : s.ctl.state ≠ .hold) :
    (halfFull i h s).queue = s.queue ∧
      ((halfFull i h s).ctl = s.ctl ∨ (halfFull i h s).ctl = s.markedCtl (countWordOf i h)) := by
  obtain ⟨-, -, -, queue, -, ctl, -⟩ := listFull_keeps i h s
  have table : (listFull i h s).capture.tableOn = s.capture.tableOn := by rw [listFull_capture]
  unfold halfFull
  split
  · obtain ⟨kept, marked⟩ := markDirty_waits (s := activate i h (removeIndex i h (listFull i h s))) (countWordOf i h)
      (ctl.symm ▸ busy) (ctl.symm ▸ awake)
    simp only [reclaim, raise_keeps]
    exact ⟨kept.trans queue, .inr (marked.trans (markedCtl_of_marked table (.inl ctl)))⟩
  · exact ⟨queue, .inl ctl⟩

/-- The port stays busy, in HOLD too. -/
theorem halfFull_busy {s : State} (i : Fin 8) (h : Half) (busy : s.ctl.op ≠ none) : (halfFull i h s).ctl.op ≠ none := by
  obtain ⟨-, -, -, -, -, ctl, -⟩ := listFull_keeps i h s
  unfold halfFull
  split
  · simp only [reclaim, raise_keeps]
    exact (markDirty_marks (s := activate i h (removeIndex i h (listFull i h s))) _ (ctl.symm ▸ busy)).2
  · exact ctl.symm ▸ busy

/-- Kept, the half is FULL under the next capture number and listed last (R84). -/
theorem halfFull_kept {s : State} {i : Fin 8} (h : Half)
    (kept : ¬ ((s.slot i).live.state = .stalled ∧ (s.slot i).config.full = .overwrite)) :
    (halfFull i h s).record i h = (s.record i h).listed s.capture.counter ∧
      ((halfFull i h s).slot i).live = (s.slot i).live ∧
      (halfFull i h s).capture = { s.capture with counter := s.capture.counter + 1, index := s.capture.index ++ [(i, h)] } := by
  obtain ⟨here, -⟩ := listFull_slot i h s
  rw [halfFull_of_kept h kept, State.record, here]
  exact ⟨record_updated _ _ _ _, rfl, listFull_capture i h s⟩

/-- Reclaimed, the half is ACTIVE again under an ARMED slot, and OVERWRITTEN is raised (R74). -/
theorem halfFull_reclaimed {s : State} {i : Fin 8} (h : Half)
    (reclaims : (s.slot i).live.state = .stalled ∧ (s.slot i).config.full = .overwrite) :
    (halfFull i h s).record i h = CaptureRecord.cleared .active ∧
      ((halfFull i h s).slot i).live = { SlotLive.cleared .armed with active := some h } ∧
      (halfFull i h s).capture.counter = s.capture.counter + 1 ∧
      (halfFull i h s).notices.pending[classOverwritten].getLsbD i.val = true := by
  obtain ⟨here, -⟩ := slot_of_slots (reclaim_slots i h (listFull i h s))
  rw [halfFull_of_reclaimed h reclaims, State.record, here, reclaim_capture, listFull_capture]
  exact ⟨record_updated _ _ _ _, rfl, rfl, raise_slot_pending i (by decide) _⟩

/-! ## The half of a burst that ends (R83, R95) -/

/-- A burst of the half that ends leaves it SEALING with no entry in the queue. -/
def State.burstFills (s : State) (i : Fin 8) (h : Half) : Prop :=
  (s.record i h).state = .sealing ∧ ∀ f ∈ s.queue, ¬ (f.slot = i ∧ f.half = h)

theorem sealAtEnd_of_fills {s : State} {i : Fin 8} {h : Half} (fills : s.burstFills i h) : sealAtEnd i h s = halfFull i h s := by
  obtain ⟨sealing, alone⟩ := fills
  refine if_pos ⟨sealing, ?_⟩
  rw [Bool.eq_false_iff, ne_eq, any_belongs]
  exact fun ⟨f, m, own⟩ => alone f m own

theorem sealAtEnd_of_short {s : State} {i : Fin 8} {h : Half} (short : ¬ s.burstFills i h) : sealAtEnd i h s = s := by
  refine if_neg fun ⟨sealing, alone⟩ => short ⟨sealing, fun f m own => ?_⟩
  rw [Bool.eq_false_iff, ne_eq, any_belongs] at alone
  exact alone ⟨f, m, own⟩

/-- The state when the words are written, the half is FULL or not, and its count word is marked; the port is not yet free. -/
def burstEnded (entries : List QueueEntry) (i : Fin 8) (h : Half) (s : State) : State :=
  markDirty (countWordOf i h) (sealAtEnd i h (burstWritten entries s))

theorem exec_burstEnd {s : State} {e : QueueEntry} {rest : List QueueEntry} (op : s.ctl.op = some (.burst (e :: rest))) :
    exec .burstEnd s = .next (freePort (burstEnded (e :: rest) e.slot e.half s)) := by
  change execBurstEnd s = _
  simp only [execBurstEnd, op, endBurst, burstEnded]

/-- Slots, capture and notices do not come from the mark. -/
theorem burstEnded_tables (entries : List QueueEntry) (i : Fin 8) (h : Half) (s : State) :
    (burstEnded entries i h s).slots = (sealAtEnd i h (burstWritten entries s)).slots ∧
      (burstEnded entries i h s).capture = (sealAtEnd i h (burstWritten entries s)).capture ∧
      (burstEnded entries i h s).notices = (sealAtEnd i h (burstWritten entries s)).notices := by
  simp only [burstEnded, markDirty_keeps, and_self]

theorem keepsOutside_burstEnded (entries : List QueueEntry) (i : Fin 8) (h : Half) (s : State) :
    KeepsOutside (burstWritten entries s) (burstEnded entries i h s) := by
  refine KeepsOutside.trans ?_ (keepsOutside_markDirty _ _)
  unfold sealAtEnd
  split
  · exact keepsOutside_halfFull i h _
  · exact .refl _

/-- No other slot and not the other half is touched. -/
theorem burstEnded_others (entries : List QueueEntry) (i : Fin 8) (h : Half) (s : State) :
    (∀ k, k ≠ i → (burstEnded entries i h s).slot k = s.slot k) ∧
      (burstEnded entries i h s).record i h.other = s.record i h.other := by
  obtain ⟨slots, -⟩ := burstEnded_tables entries i h s
  simp only [State.record, slot_congr slots]
  unfold sealAtEnd
  split
  · obtain ⟨r, l, changed⟩ := halfFull_slots i h (burstWritten entries s)
    obtain ⟨here, others⟩ := slot_of_slots changed
    exact ⟨others, by rw [here, record_updated_other]; rfl⟩
  · exact ⟨fun _ _ => rfl, rfl⟩

/-- Whatever the end of a burst marks is one word, set once or twice (R95). -/
theorem burstEnded_waits {s : State} (entries : List QueueEntry) (i : Fin 8) (h : Half) (busy : s.ctl.op ≠ none)
    (awake : s.ctl.state ≠ .hold) :
    (burstEnded entries i h s).queue = s.queue ∧
      (burstEnded entries i h s).ctl = (burstWritten entries s).markedCtl (countWordOf i h) := by
  by_cases fills : (burstWritten entries s).burstFills i h
  · obtain ⟨queue, ctl⟩ := halfFull_waits (s := burstWritten entries s) i h busy awake
    have table := halfFull_tableOn i h (burstWritten entries s)
    have awakeNow : (halfFull i h (burstWritten entries s)).ctl.state ≠ .hold := by
      rcases ctl with same | marked
      · rw [same]; exact awake
      · rw [marked]; exact awake
    obtain ⟨kept, marked⟩ := markDirty_waits (countWordOf i h) (halfFull_busy (s := burstWritten entries s) i h busy) awakeNow
    rw [burstEnded, sealAtEnd_of_fills fills]
    exact ⟨kept.trans queue, marked.trans (markedCtl_of_marked table ctl)⟩
  · rw [burstEnded, sealAtEnd_of_short fills]
    exact markDirty_waits (s := burstWritten entries s) _ busy awake

/-- The mark is set in HOLD too. -/
theorem burstEnded_mark {s : State} (entries : List QueueEntry) (i : Fin 8) (h : Half) (busy : s.ctl.op ≠ none)
    (on : s.capture.tableOn = true) : (burstEnded entries i h s).ctl.dirty[countWordOf i h] = true := by
  by_cases fills : (burstWritten entries s).burstFills i h
  · rw [burstEnded, sealAtEnd_of_fills fills]
    exact (markDirty_marks _ (halfFull_busy (s := burstWritten entries s) i h busy)).1 ((halfFull_tableOn i h _).trans on)
  · rw [burstEnded, sealAtEnd_of_short fills]
    exact (markDirty_marks (s := burstWritten entries s) _ busy).1 on

theorem freePort_frame (s : State) : { freePort s with ctl := s.ctl, queue := s.queue } = s :=
  congrArg (fun t : State => { t with ctl := s.ctl }) (chooseMem_frame { s with ctl := { s.ctl with op := none } })

end Sys2Proof.Machine

open Sys2Proof Sys2Proof.Machine

/-- Settles O58: the words written, the half FULL when nothing of it waits, then the mark, the free port and the arbiter's choice. -/
theorem burstEndWritesItsWordsAndMayFillItsHalf : Obligations.BurstEndWritesItsWordsAndMayFillItsHalf := by
  intro s e rest op x fills reclaims
  have busy : s.ctl.op ≠ none := by simp [op]
  let v := burstEnded (e :: rest) e.slot e.half s
  obtain ⟨slots, capture, notices⟩ := burstEnded_tables (e :: rest) e.slot e.half s
  obtain ⟨others, other⟩ := burstEnded_others (e :: rest) e.slot e.half s
  obtain ⟨link, frame⟩ := keepsOutside_burstEnded (e :: rest) e.slot e.half s
  have portSlots : (freePort v).slots = v.slots := by simp only [freePort_keeps]
  have portCapture : (freePort v).capture = v.capture := by simp only [freePort_keeps]
  have portNotices : (freePort v).notices = v.notices := by simp only [freePort_keeps]
  have portLink : (freePort v).link = v.link := by simp only [freePort_keeps]
  have mem : (freePort v).mem = s.mem.writeBurst (e :: rest) := by
    simp only [freePort_keeps]
    exact congrArg State.mem frame
  refine ⟨_, exec_burstEnd op, fun before f after split last => ?_, fun a away => ?_, fun k n => ?_, ?_, fun full => ?_,
    fun short => ?_, fun on => ?_, fun awake => ?_, ?_, ?_⟩
  · rw [mem, split]
    exact read_writeBurst_last _ before last
  · rw [mem]
    exact read_writeBurst_ne _ _ _ away
  · exact (slot_congr portSlots k).trans (others k n)
  · exact (congrArg (Slot.record · e.half.other) (slot_congr portSlots e.slot)).trans other
  · rw [sealAtEnd_of_fills (s := burstWritten (e :: rest) s) full] at slots capture notices
    have slot := slot_congr (portSlots.trans slots) e.slot
    rw [State.record, slot, portCapture.trans capture, portNotices.trans notices]
    exact ⟨halfFull_pending _ _ _, halfFull_kept (s := burstWritten (e :: rest) s) e.half,
      halfFull_reclaimed (s := burstWritten (e :: rest) s) e.half⟩
  · rw [sealAtEnd_of_short (s := burstWritten (e :: rest) s) short] at slots capture notices
    exact ⟨portSlots.trans slots, portCapture.trans capture, portNotices.trans notices⟩
  · exact chooseMem_mark (s := { v with ctl := { v.ctl with op := none } }) (burstEnded_mark _ _ _ busy on)
  · obtain ⟨queue, ctl⟩ := burstEnded_waits (e :: rest) e.slot e.half busy awake
    have banks : v.ctl.banks = openRows s.ctl.banks ((e :: rest).map QueueEntry.address) := congrArg MemCtl.banks ctl
    refine ⟨{ v with ctl := { v.ctl with op := none } }, rfl, queue, ?_, fun before f after split last => ?_, fun b away => ?_⟩
    · exact congrArg (fun c : MemCtl => { c with op := none, banks := v.ctl.banks }) ctl
    · simp only [banks, split, List.map_append, List.map_cons]
      refine openRows_last _ _ fun a m => ?_
      obtain ⟨g, later, rfl⟩ := List.mem_map.mp m
      exact last g later
    · simp only [banks]
      refine openRows_ne _ fun a m => ?_
      obtain ⟨g, touched, rfl⟩ := List.mem_map.mp m
      exact away g touched
  · rw [portLink]
    exact link
  · have port := congrArg (fun u : State => { u with
      slots := s.slots, capture := s.capture, queue := s.queue, mem := s.mem, ctl := s.ctl, notices := s.notices,
      link := s.link }) (freePort_frame v)
    exact port.trans (congrArg (fun u : State => { u with mem := s.mem, ctl := s.ctl }) frame)
end

section
/-! SUPPORT. ControlWriteChangesItsSettings: the fields of space 0's words, the settings of the count table and its marks, and the
part that an accepted WRITE leaves (R93, R134, R168, R179). -/

namespace Sys2Proof.Machine

/-! ## Fields of the words (11.4) -/

theorem ofNat_bits (w : MgmtWord) (lo width : Nat) : BitVec.ofNat width (bits w lo width) = w.extractLsb' lo width := by
  apply BitVec.eq_of_toNat_eq
  rw [toNat_ofNat_bits, BitVec.extractLsb'_toNat, Nat.shiftRight_eq_div_pow]
  rfl

theorem bits_low4 (w : MgmtWord) : bits w 0 4 = w.toNat % 16 := by
  simp [bits]

/-- The four causes of R179. -/
theorem controlInRange_iff (r : Request) :
    controlInRange r = true ↔
      (∀ v, r.covered 2 = some v → v.toNat % 4 < 2) ∧ (∀ v, r.covered 6 = some v → v.toNat % 16 = 0) ∧
        (∀ v, r.covered 7 = some v → v.toNat % 16 < 8) ∧ ∀ v, r.covered 9 = some v → v.toNat % 16 ≤ 8 := by
  have mode : ∀ w : MgmtWord, bits w 0 2 = w.toNat % 4 := fun w => by simp [bits]
  have base : ∀ w : MgmtWord, bits w 0 24 % 16 = w.toNat % 16 := fun w => by
    simp only [bits]
    omega
  simp only [controlInRange, Bool.and_eq_true, wordPasses_iff, decide_eq_true_eq, mode, base, bits_low4, and_assoc]

theorem modeOf_of_inRange {v : MgmtWord} (h : v.toNat % 4 < 2) :
    modeOf v = if v.getLsbD 0 then .proceed else .stop := by
  have same : (bits v 0 2 = 1) ↔ bits v 0 1 = 1 := by
    simp only [bits]
    omega
  rw [modeOf, ← bits_one v 0]
  simp only [same, decide_eq_true_eq]

theorem expressOf_iff (v : MgmtWord) (k : Fin 8) : expressOf v = some k ↔ k.val = v.toNat % 16 := by
  have := k.isLt
  unfold expressOf
  split
  · simp only [Option.some.injEq, Fin.ext_iff, bits_low4, eq_comm]
  · rename_i none
    rw [bits_low4] at none
    simp only [reduceCtorEq, false_iff]
    omega

/-! ## The count table (R93) -/

/-- The part with other settings of the count table. -/
def State.withTable (s : State) (on : Bool) (base : MemAddr) : State :=
  { s with capture := { s.capture with tableOn := on, tableBase := base } }

/-- Turned on, or moved while on: every word is marked. -/
theorem setCountTable_of_moved {s : State} {base : MemAddr}
    (moved : s.capture.tableOn = false ∨ base ≠ s.capture.tableBase) :
    setCountTable true base s = markAll (s.withTable true base) := by
  have changed : ¬ (s.capture.tableOn && base == s.capture.tableBase) = true := by
    rcases moved with off | moved
    · simp [off]
    · simp [moved]
  simp only [setCountTable, if_true, changed, State.withTable]
  rfl

theorem setCountTable_of_kept {s : State} {base : MemAddr} (on : s.capture.tableOn = true)
    (still : base = s.capture.tableBase) : setCountTable true base s = s.withTable true base := by
  simp [setCountTable, on, still, State.withTable]

/-- Turned off: every mark is discarded. -/
theorem setCountTable_of_discarded {s : State} {base : MemAddr} (on : s.capture.tableOn = true) :
    setCountTable false base s =
      { s.withTable false base with ctl := { s.ctl with dirty := Vector.replicate 16 false } } := by
  simp [setCountTable, on, State.withTable]

theorem setCountTable_of_off {s : State} {base : MemAddr} (off : s.capture.tableOn = false) :
    setCountTable false base s = s.withTable false base := by
  simp [setCountTable, off, State.withTable]

/-- Settings written as they stand are settings kept. -/
theorem setCountTable_self (s : State) : setCountTable s.capture.tableOn s.capture.tableBase s = s := by
  cases on : s.capture.tableOn with
  | true =>
    rw [setCountTable_of_kept on rfl, State.withTable, ← on]
  | false =>
    rw [setCountTable_of_off on, State.withTable, ← on]

@[simp] theorem setCountTable_keeps (on : Bool) (base : MemAddr) (s : State) :
    (setCountTable on base s).channels = s.channels ∧ (setCountTable on base s).handing = s.handing ∧
    (setCountTable on base s).watches = s.watches ∧ (setCountTable on base s).slots = s.slots ∧
    (setCountTable on base s).capture = { s.capture with tableOn := on, tableBase := base } ∧
    (setCountTable on base s).mem = s.mem ∧ (setCountTable on base s).notices = s.notices ∧
    (setCountTable on base s).uPort = s.uPort ∧ (setCountTable on base s).dPort = s.dPort ∧
    (setCountTable on base s).link = s.link ∧ (setCountTable on base s).ep = s.ep ∧
    (setCountTable on base s).micros = s.micros ∧ (setCountTable on base s).free = s.free ∧
    (setCountTable on base s).pending = s.pending := by
  unfold setCountTable
  dsimp only
  (repeat' split) <;> simp

theorem setCountTable_frame (on : Bool) (base : MemAddr) (s : State) :
    { setCountTable on base s with capture := s.capture, queue := s.queue, ctl := s.ctl } = s := by
  apply State.ext_fields <;> simp

/-- Marks set at a busy port outside HOLD wait. -/
theorem markAll_of_busy {s : State} (busy : s.ctl.op ≠ none) (awake : s.ctl.state ≠ .hold) :
    markAll s = { s with ctl := { s.ctl with dirty := Vector.replicate 16 true } } :=
  workArrives_of_busy (s := { s with ctl := { s.ctl with dirty := Vector.replicate 16 true } }) busy awake

/-- In HOLD they start the exit (R124). -/
theorem markAll_of_hold {s : State} (hold : s.ctl.state = .hold) :
    (markAll s).ctl.state = .exiting ∧ (markAll s).ctl.dirty = Vector.replicate 16 true := by
  rw [markAll, workArrives_of_hold (s := { s with ctl := { s.ctl with dirty := Vector.replicate 16 true } }) hold]
  exact ⟨rfl, rfl⟩

/-- The settings of the count table that a WRITE leaves: those its word carries, else those that stand. -/
theorem writeCountSettings_eq (r : Request) (s : State) :
    writeCountSettings r s =
      setCountTable ((r.covered 6).elim s.capture.tableOn fun v => v.getLsbD 31)
        ((r.covered 6).elim s.capture.tableBase fun v => v.extractLsb' 0 24) s := by
  unfold writeCountSettings
  cases r.covered 6 with
  | none => exact (setCountTable_self s).symm
  | some v => simp only [Option.elim, bits_one, ofNat_bits]

/-! ## The WRITE (R179) -/

theorem writeControl_of_badValue {r : Request} {s : State} (h : ¬ controlInRange r = true) :
    writeControl r s = (s, .answer .badValue []) := by
  simp only [writeControl, h, Bool.not_false, if_true, refusedWith]

theorem writeControl_of_inRange {r : Request} {s : State} (h : controlInRange r = true) :
    writeControl r s = (writeSettings r (writeCountSettings r (writeMode r s)), .answer .ok []) := by
  simp only [writeControl, h, Bool.not_true, Bool.false_eq_true, if_false, acceptedWith]

theorem writesWords_of_covered {r : Request} {space n : Nat} (writes : r.writesSpace space = true)
    (covered : r.covered n ≠ none) :
    r.writesWords space [n] = true := by
  simp [Request.writesWords, writes, (isSome_covered r n).mpr covered]

/-- A WRITE to space 0 is answered as its owner answers, by the row WRITE and by each narrower row whose word it covers. -/
theorem answersWith_of_writeControl {s u : State} {i : Fin 4} {q : Taken} {status : Status} {c : Instr} (h : s.runsWrite 0 i q)
    (row : c = .write ∨ (c = .writeCountTable ∧ q.request.covered 6 ≠ none) ∨
      (c = .writeExpressClass ∧ q.request.covered 9 ≠ none) ∨ (c = .writeCheckMode ∧ q.request.covered 2 ≠ none))
    (owner : writeControl q.request s = (u, .answer status [])) : answersWith c s u i q status [] := by
  obtain ⟨run, space, isWrite⟩ := runWrite_of_runsWrite h
  obtain ⟨now, writes, -⟩ := h
  have answers : runWrite i q.request s = (u, .answer status []) := by
    rw [run, writeOwner, space]
    exact owner
  rcases row with rfl | ⟨rfl, covered⟩ | ⟨rfl, covered⟩ | ⟨rfl, covered⟩
  · exact ⟨_, rfl, execute_answers now (by simp [isWrite]) answers⟩
  all_goals exact ⟨_, rfl, execute_answers now (writesWords_of_covered writes covered) answers⟩

/-- The check mode that a WRITE in range leaves (R168). -/
theorem writeMode_ep {r : Request} (s : State) (inRange : ∀ v, r.covered 2 = some v → v.toNat % 4 < 2) :
    (writeMode r s).ep =
      { s.ep with mode := (r.covered 2).elim s.ep.mode fun v => if v.getLsbD 0 then .proceed else .stop } := by
  unfold writeMode
  cases carries : r.covered 2 with
  | none => rfl
  | some v => simp only [carried, Option.elim, modeOf_of_inRange (inRange v carries)]

@[simp] theorem writeMode_keeps (r : Request) (s : State) :
    (writeMode r s).capture = s.capture ∧ (writeMode r s).queue = s.queue ∧ (writeMode r s).ctl = s.ctl ∧
      (writeMode r s).notices = s.notices ∧ (writeMode r s).link = s.link ∧ (writeMode r s).micros = s.micros ∧
      (writeMode r s).ep.nodeAddress = s.ep.nodeAddress := by
  simp [writeMode]

/-- The notice settings that a WRITE in range leaves, field by field; it moves no other field of the notice unit (R134). -/
theorem withSettings_fields {r : Request} (u : NoticeUnit) (inRange : ∀ v, r.covered 7 = some v → v.toNat % 16 < 8) :
    (u.withSettings r).dispatchBase = (r.covered 7).elim u.dispatchBase (fun v => v.extractLsb' 16 16) ∧
      (u.withSettings r).dispatchShift.val = (r.covered 7).elim u.dispatchShift.val (fun v => v.toNat % 16) ∧
      (u.withSettings r).holdoff = (r.covered 8).elim u.holdoff (fun v => v.extractLsb' 0 16) ∧
      (u.withSettings r).express = (r.covered 9).elim u.express expressOf := by
  simp only [NoticeUnit.withSettings, carried_eq_elim, ofNat_bits, true_and, and_true]
  cases carries : r.covered 7 with
  | none => rfl
  | some v => simp only [Option.elim, bits_low4, Nat.mod_eq_of_lt (inRange v carries)]

theorem withSettings_frame (u : NoticeUnit) (r : Request) :
    { u.withSettings r with
      dispatchBase := u.dispatchBase, dispatchShift := u.dispatchShift, holdoff := u.holdoff, express := u.express } = u := rfl

/-- The notice settings change with one build, which reaches nothing but the frame being sent at D-out. -/
theorem writeSettings_frame (r : Request) (s : State) :
    (writeSettings r s).notices = (s.notices.withSettings r).built s.ep.nodeAddress s.micros ∧
      { (writeSettings r s).link with dSending := s.link.dSending } = s.link ∧
      { writeSettings r s with notices := s.notices, link := s.link } = s :=
  ⟨build_notices _, build_linkFrame { s with notices := s.notices.withSettings r },
    congrArg (fun t : State => { t with notices := s.notices }) (build_frame { s with notices := s.notices.withSettings r })⟩

@[simp] theorem writeSettings_keeps (r : Request) (s : State) :
    (writeSettings r s).ep = s.ep ∧ (writeSettings r s).capture = s.capture ∧ (writeSettings r s).queue = s.queue ∧
      (writeSettings r s).ctl = s.ctl := by
  simp [writeSettings]

end Sys2Proof.Machine

open Sys2Proof Sys2Proof.Machine

/-- Settles O50: the four causes, then the settings field by field and the marks by what becomes of the count table. -/
theorem controlWriteChangesItsSettings : Obligations.ControlWriteChangesItsSettings := by
  intro s i q runs word inRange on base c row
  have inRangeIff : controlInRange q.request = true ↔ inRange := controlInRange_iff q.request
  refine ⟨fun bad => answersWith_of_writeControl runs row (writeControl_of_badValue fun good => bad (inRangeIff.mp good)),
    fun good => ?_⟩
  have answers := answersWith_of_writeControl runs row (writeControl_of_inRange (inRangeIff.mpr good))
  have counted : writeCountSettings q.request (writeMode q.request s) = setCountTable on base (writeMode q.request s) :=
    writeCountSettings_eq q.request (writeMode q.request s)
  rw [counted] at answers
  obtain ⟨mode, -, shift, -⟩ := good
  obtain ⟨dispatchBase, dispatchShift, holdoff, express⟩ := withSettings_fields s.notices shift
  obtain ⟨notices, link, frame⟩ := writeSettings_frame q.request (setCountTable on base (writeMode q.request s))
  refine ⟨_, s.notices.withSettings q.request, answers, ?_, ?_, dispatchBase, dispatchShift, holdoff, fun absent => ?_,
    fun v carries k => ?_, withSettings_frame _ _, ?_, ?_, fun isOn moved busy awake => ?_, fun isOn moved hold => ?_,
    fun isOn wasOn still => ?_, fun isOff wasOn => ?_, fun isOff wasOff => ?_, ?_⟩
  · simpa using writeMode_ep s mode
  · simp
  · rw [express, show q.request.covered 9 = none from absent]
    rfl
  · rw [express, show q.request.covered 9 = some v from carries]
    exact expressOf_iff v k
  · simpa using notices
  · simpa using link
  · rw [isOn, setCountTable_of_moved (s := writeMode q.request s) moved,
      markAll_of_busy (s := (writeMode q.request s).withTable true base) busy awake]
    simp [State.withTable]
  · rw [isOn, setCountTable_of_moved (s := writeMode q.request s) moved]
    simpa using markAll_of_hold (s := (writeMode q.request s).withTable true base) hold
  · rw [isOn, setCountTable_of_kept (s := writeMode q.request s) wasOn still]
    simp [State.withTable]
  · rw [isOff, setCountTable_of_discarded (s := writeMode q.request s) wasOn]
    simp [State.withTable]
  · rw [isOff, setCountTable_of_off (s := writeMode q.request s) wasOff]
    simp [State.withTable]
  · have settings := congrArg (fun t : State => { t with
      ep := s.ep, capture := s.capture, notices := s.notices, ctl := s.ctl, queue := s.queue, link := s.link }) frame
    exact settings.trans (congrArg (fun t : State => { t with ep := s.ep, notices := s.notices, link := s.link })
      (setCountTable_frame on base (writeMode q.request s)))
end

section
/-! SUPPORT. StepKeepsSealingHalvesWaiting: the entries that wait through every choice of the memory arbiter, the records that can
be SEALING after each operation on a slot, and so the invariant through every command (R71, R72, R82, R83, R101, R102, R117). -/

namespace Sys2Proof.Machine

/-! ## What the invariant rests on -/

/-- In UNINIT and HOLD nothing is on the port (R117), so that no burst is lost to an initialisation or an exit from hold. -/
def State.restsFree (s : State) : Prop :=
  s.ctl.state = .uninit ∨ s.ctl.state = .hold → s.ctl.op = none

theorem restsFree_of_memoryAgrees {s : State} (a : s.memoryAgrees) : s.restsFree := by
  obtain ⟨port, -⟩ := a
  rintro (uninit | hold)
  · simpa [MemCtl.portAgrees, uninit] using port
  · simpa [MemCtl.portAgrees, hold] using port

/-- What holds at every point within a step: a SEALING half has an entry that waits, and a memory at rest has a free port. -/
def State.sealingHeld (s : State) : Prop :=
  s.restsFree ∧ s.sealingWaits

/-- Whether a half waits is read from the queue and the burst in progress. -/
theorem halfWaits_congr {s t : State} (queue : t.queue = s.queue) (burst : t.ctl.burstEntries = s.ctl.burstEntries) (i : Fin 8)
    (h : Half) : t.halfWaits i h = s.halfWaits i h := by
  simp only [State.halfWaits, queue, burst]

theorem burstEntries_of_op {c : MemCtl} (none : ∀ entries, c.op ≠ some (.burst entries)) : c.burstEntries = [] := by
  refine List.eq_nil_iff_forall_not_mem.mpr fun e m => ?_
  obtain ⟨entries, op, -⟩ := (mem_burstEntries c e).mp m
  exact none entries op

/-- The two ways in which a half can be SEALING: it was and still waits, or it has become so and waits. -/
theorem sealingHeld_of_records {s t : State} (a : s.sealingHeld) (rests : t.restsFree)
    (waits : ∀ i h, s.halfWaits i h = true → t.halfWaits i h = true)
    (records : ∀ i h, (t.record i h).state = .sealing → (s.record i h).state = .sealing ∨ t.halfWaits i h = true) :
    t.sealingHeld := by
  refine ⟨rests, fun i h seals => ?_⟩
  rcases records i h seals with before | now
  · exact waits i h (a.2 i h before)
  · exact now

/-- An operation that leaves the slots makes no half SEALING. -/
theorem sealingHeld_of_slots {s t : State} (a : s.sealingHeld) (rests : t.restsFree)
    (waits : ∀ i h, s.halfWaits i h = true → t.halfWaits i h = true) (slots : t.slots = s.slots) : t.sealingHeld :=
  sealingHeld_of_records a rests waits fun i h seals => .inl (by rwa [record_congr slots] at seals)

/-- An operation on the memory controller that leaves slots, queue and burst in progress. -/
theorem sealingHeld_of_burst {s t : State} (a : s.sealingHeld) (rests : t.restsFree)
    (same : t.slots = s.slots ∧ t.queue = s.queue ∧ t.ctl.burstEntries = s.ctl.burstEntries) : t.sealingHeld := by
  obtain ⟨slots, queue, burst⟩ := same
  exact sealingHeld_of_slots a rests (fun i h w => (halfWaits_congr queue burst i h).trans w) slots

/-- An operation that touches neither slots nor queue, and of the controller neither state nor operation. -/
theorem sealingHeld_congr {s t : State} (a : s.sealingHeld)
    (same : t.slots = s.slots ∧ t.queue = s.queue ∧ t.ctl.state = s.ctl.state ∧ t.ctl.op = s.ctl.op) : t.sealingHeld := by
  obtain ⟨slots, queue, state, op⟩ := same
  have rests : t.restsFree := by simpa only [State.restsFree, state, op] using a.1
  exact sealingHeld_of_burst a rests ⟨slots, queue, by simp only [MemCtl.burstEntries, op]⟩

theorem sealingHeld_raise {s : State} (a : s.sealingHeld) (c : Fin 8) (n : Fin 32) : (raise c n s).sealingHeld :=
  sealingHeld_congr a (by simp)

/-- One half of one slot changes: SEALING now only if it was, or if an entry of it waits. -/
theorem sealingHeld_updated {s : State} {i : Fin 8} {h : Half} {r : CaptureRecord} {l : SlotLive} (a : s.sealingHeld)
    (seals : r.state = .sealing → (s.record i h).state = .sealing ∨ s.halfWaits i h = true) :
    (s.setSlot i ((s.slot i).updated h r l)).sealingHeld := by
  refine sealingHeld_of_records a a.1 (fun _ _ => id) fun j k now => ?_
  rw [record_of_updated rfl] at now
  split at now
  · rename_i here
    cases here
    exact seals now
  · exact .inl now

theorem sealingHeld_setRecord {s : State} {i : Fin 8} {h : Half} {r : CaptureRecord} (a : s.sealingHeld)
    (seals : r.state = .sealing → (s.record i h).state = .sealing) : (s.setRecord i h r).sealingHeld := by
  rw [State.setRecord, setRecord_eq_updated]
  exact sealingHeld_updated a fun now => .inl (seals now)

theorem sealingHeld_setLive {s : State} (a : s.sealingHeld) (i : Fin 8) (l : SlotLive) : (s.setLive i l).sealingHeld := by
  rw [State.setLive, withLive_eq_updated _ .a]
  exact sealingHeld_updated a .inl

/-! ## The memory arbiter (R101, R107, R124) -/

/-- The entries that a burst takes from the queue wait in the burst (R82). -/
theorem beginBurst_halfWaits {s : State} (free : s.ctl.op = none) (i : Fin 8) (h : Half) :
    (beginBurst s).halfWaits i h = s.halfWaits i h := by
  have before : s.ctl.burstEntries = [] := burstEntries_of_op (by simp [free])
  have queue : s.queue.any (·.belongs i h) =
      ((takeBurst s.queue).1.any (·.belongs i h) || (takeBurst s.queue).2.any (·.belongs i h)) := by
    rw [← List.any_append, takeBurst_append]
  simp only [State.halfWaits, before, queue, List.any_nil, Bool.or_false]
  exact Bool.or_comm _ _

/-- A choice of the arbiter loses no entry. -/
theorem chooseMem_halfWaits (s : State) (i : Fin 8) (h : Half) : (chooseMem s).halfWaits i h = s.halfWaits i h := by
  unfold chooseMem
  split
  · rename_i choice
    obtain ⟨-, free⟩ := choice
    have before : s.ctl.burstEntries = [] := burstEntries_of_op (by simp [free])
    have burst := beginBurst_halfWaits free i h
    have other : ∀ t : State, t.queue = s.queue → t.ctl.burstEntries = [] → t.halfWaits i h = s.halfWaits i h :=
      fun t queue none => halfWaits_congr queue (none.trans before.symm) i h
    unfold beginWork
    split
    · exact other _ rfl rfl
    · split
      · exact burst
      · split
        · exact other _ rfl rfl
        · split
          · exact other _ rfl rfl
          · split
            · exact burst
            · split
              · exact other _ rfl rfl
              · rfl
  · rfl

theorem chooseMem_restsFree {s : State} (a : s.restsFree) : (chooseMem s).restsFree := by
  intro rests
  simp only [chooseMem_ctl] at rests
  have resting : s.ctl.state.serving = false := by rcases rests with e | e <;> rw [e] <;> rfl
  rw [chooseMem_of_notServing resting]
  exact a rests

theorem sealingHeld_chooseMem {s : State} (a : s.sealingHeld) : (chooseMem s).sealingHeld :=
  sealingHeld_of_slots a (chooseMem_restsFree a.1) (fun i h w => (chooseMem_halfWaits s i h).trans w) (by simp)

/-- The exit from hold begins at a free port, where no burst is. -/
theorem workArrives_halfWaits {s : State} (a : s.restsFree) (i : Fin 8) (h : Half) :
    (workArrives s).halfWaits i h = s.halfWaits i h := by
  by_cases hold : s.ctl.state = .hold
  · have before : s.ctl.burstEntries = [] := burstEntries_of_op (by simp [a (.inr hold)])
    have after : (beginExit s).ctl.burstEntries = [] := rfl
    rw [workArrives_of_hold hold]
    exact halfWaits_congr (s := s) (t := beginExit s) rfl (after.trans before.symm) i h
  · rw [workArrives_of_notHold hold]
    exact chooseMem_halfWaits s i h

theorem workArrives_restsFree {s : State} (a : s.restsFree) : (workArrives s).restsFree := by
  by_cases hold : s.ctl.state = .hold
  · rw [workArrives_of_hold hold]
    simp [State.restsFree, beginExit]
  · rw [workArrives_of_notHold hold]
    exact chooseMem_restsFree a

theorem sealingHeld_workArrives {s : State} (a : s.sealingHeld) : (workArrives s).sealingHeld :=
  sealingHeld_of_slots a (workArrives_restsFree a.1) (fun i h w => (workArrives_halfWaits a.1 i h).trans w) (by simp)

theorem sealingHeld_setMark {s : State} (a : s.sealingHeld) (w : Fin 16) : (setMark w s).sealingHeld :=
  sealingHeld_congr a ⟨rfl, rfl, rfl, rfl⟩

theorem sealingHeld_markDirty {s : State} (a : s.sealingHeld) (w : Fin 16) : (markDirty w s).sealingHeld := by
  unfold markDirty
  split
  · exact sealingHeld_workArrives (sealingHeld_setMark a w)
  · exact a

theorem sealingHeld_markQuietly {s : State} (a : s.sealingHeld) (w : Fin 16) : (markQuietly w s).sealingHeld := by
  unfold markQuietly
  split
  · exact sealingHeld_chooseMem (sealingHeld_setMark a w)
  · exact a

theorem sealingHeld_markAll {s : State} (a : s.sealingHeld) : (markAll s).sealingHeld :=
  sealingHeld_workArrives (s := { s with ctl := { s.ctl with dirty := Vector.replicate 16 true } })
    (sealingHeld_congr a ⟨rfl, rfl, rfl, rfl⟩)

/-- The port is freed of an operation other than a burst. -/
theorem sealingHeld_freed {s t : State} (a : s.sealingHeld) (other : ∀ entries, s.ctl.op ≠ some (.burst entries))
    (free : t.ctl.op = none) (same : t.slots = s.slots ∧ t.queue = s.queue) : t.sealingHeld := by
  have burst : t.ctl.burstEntries = s.ctl.burstEntries :=
    (burstEntries_of_op (by simp [free])).trans (burstEntries_of_op other).symm
  exact sealingHeld_of_burst a (fun _ => free) ⟨same.1, same.2, burst⟩

theorem sealingHeld_freePort {s : State} (a : s.sealingHeld) (other : ∀ entries, s.ctl.op ≠ some (.burst entries)) :
    (freePort s).sealingHeld :=
  sealingHeld_chooseMem (sealingHeld_freed a other rfl ⟨rfl, rfl⟩)

/-! ## Halves taken, given back and listed -/

theorem sealingHeld_activate {s : State} (a : s.sealingHeld) (i : Fin 8) (h : Half) : (activate i h s).sealingHeld :=
  sealingHeld_updated (r := CaptureRecord.cleared .active) a (by simp [CaptureRecord.cleared])

theorem sealingHeld_takeHalf {s : State} (a : s.sealingHeld) (i : Fin 8) (h : Half) : (takeHalf i h s).sealingHeld :=
  sealingHeld_markDirty (sealingHeld_activate a i h) _

theorem sealingHeld_armHalf {s : State} (a : s.sealingHeld) (i : Fin 8) (h : Half) : (armHalf i h s).sealingHeld :=
  sealingHeld_markQuietly (sealingHeld_activate a i h) _

theorem sealingHeld_emptyHalf {s : State} (a : s.sealingHeld) (i : Fin 8) (h : Half) : (emptyHalf i h s).sealingHeld :=
  sealingHeld_markDirty (sealingHeld_setRecord (r := CaptureRecord.cleared .empty) a (by simp [CaptureRecord.cleared])) _

theorem sealingHeld_removeIndex {s : State} (a : s.sealingHeld) (i : Fin 8) (h : Half) : (removeIndex i h s).sealingHeld :=
  sealingHeld_congr a ⟨rfl, rfl, rfl, rfl⟩

theorem sealingHeld_reclaim {s : State} (a : s.sealingHeld) (i : Fin 8) (h : Half) : (reclaim i h s).sealingHeld :=
  sealingHeld_raise (sealingHeld_takeHalf (sealingHeld_removeIndex a i h) i h) _ _

theorem sealingHeld_armReclaim {s : State} (a : s.sealingHeld) (i : Fin 8) (h : Half) : (armReclaim i h s).sealingHeld :=
  sealingHeld_raise (sealingHeld_armHalf (sealingHeld_removeIndex a i h) i h) _ _

theorem sealingHeld_toRest {s : State} (a : s.sealingHeld) (i : Fin 8) (state : SlotState) : (toRest i state s).sealingHeld :=
  sealingHeld_setLive a i _

/-! ## Completion (R71, R72) -/

theorem sealingHeld_nextHalf {s : State} (a : s.sealingHeld) (i : Fin 8) (other : Half) : (nextHalf i other s).sealingHeld := by
  unfold nextHalf
  split
  · exact sealingHeld_takeHalf a i other
  · exact sealingHeld_reclaim a i other
  all_goals exact sealingHeld_toRest a i .stalled

/-- A capture that completes has its last sample in the queue or in a burst (R82). -/
theorem sealingHeld_complete {s : State} {i : Fin 8} {h : Half} (a : s.sealingHeld) (waits : s.halfWaits i h = true) :
    (complete i h s).sealingHeld := by
  rw [complete_eq, sealed_eq]
  exact sealingHeld_nextHalf (sealingHeld_updated a fun _ => .inr waits) i _

/-- A truncated capture seals a half that waits, or makes one that does not FULL at once (R83). -/
theorem sealingHeld_truncate {s : State} (a : s.sealingHeld) (i : Fin 8) (h : Half) : (truncate i h s).sealingHeld := by
  obtain ⟨queue, ctl, -⟩ := truncate_frame i h s
  by_cases waits : s.halfWaits i h = true
  · rw [truncate_of_waiting waits]
    exact sealingHeld_updated a fun _ => .inr waits
  · have slots := listFull_slots i h (s.truncated i h)
    rw [← truncate_of_written waits, State.setRecord, setRecord_eq_updated, State.truncated, slot_setSlot, setSlot_setSlot,
      updated_updated] at slots
    refine sealingHeld_congr (sealingHeld_updated a ?_) ⟨slots, queue, congrArg MemCtl.state ctl, congrArg MemCtl.op ctl⟩
    simp [CaptureRecord.listed]

/-! ## A slot's sample, triggers and gaps -/

theorem sealingHeld_afterPost {s : State} {i : Fin 8} {h : Half} (a : s.sealingHeld) (waits : s.halfWaits i h = true) :
    (afterPost i h s).sealingHeld := by
  unfold afterPost
  split
  · exact sealingHeld_complete a waits
  · split
    · exact sealingHeld_raise (sealingHeld_setLive a i _) _ _
    · exact a

/-- The entry of a sample is in the queue before the sample can complete the capture. -/
theorem sampleQueued_halfWaits {s : State} (a : s.restsFree) (i : Fin 8) (h : Half) (v : Sample) :
    (s.sampleQueued i h v).halfWaits i h = true := by
  have queued : ({ s with queue := s.queue ++ [(s.slot i).entry i h v] } : State).halfWaits i h = true := by
    simp [State.halfWaits, QueueEntry.belongs, Slot.entry]
  exact (workArrives_halfWaits (s := { s with queue := s.queue ++ [(s.slot i).entry i h v] }) a i h).trans queued

theorem sealingHeld_sampleQueued {s : State} (a : s.sealingHeld) (i : Fin 8) (h : Half) (v : Sample) :
    (s.sampleQueued i h v).sealingHeld := by
  refine sealingHeld_workArrives (sealingHeld_of_slots a a.1 (fun j k w => ?_) rfl)
  simp only [State.halfWaits, List.any_append, Bool.or_eq_true] at w ⊢
  exact w.imp_left .inl

theorem sealingHeld_storeSample {s : State} (a : s.sealingHeld) (i : Fin 8) (h : Half) (v : Sample) (t : Tick) :
    (storeSample i h v t s).sealingHeld := by
  have queued := sealingHeld_sampleQueued a i h v
  have slot : (s.sampleQueued i h v).slot i = s.slot i := slot_congr (sampleQueued_keeps s i h v).1 i
  have stored : ((s.sampleQueued i h v).setSlot i ((s.slot i).stored h t)).sealingHeld := by
    rw [← slot, stored_eq]
    exact sealingHeld_updated queued fun seals => .inl ((storedRecord_state _ h t).symm.trans seals)
  unfold storeSample
  dsimp only
  split
  · exact sealingHeld_afterPost stored (sampleQueued_halfWaits a.1 i h v)
  · exact stored

theorem sealingHeld_slotSample {s : State} (a : s.sealingHeld) (i : Fin 8) (v : Sample) (t : Tick) :
    (slotSample i v t s).sealingHeld := by
  have receives : ∀ h,
      (if Config.queueCapacity ≤ s.queue.length then loseSample i h s else storeSample i h v t s).sealingHeld := fun h => by
    split
    · refine sealingHeld_raise (sealingHeld_setRecord a ?_) _ _
      exact id
    · exact sealingHeld_storeSample a i h v t
  unfold slotSample
  split
  · exact receives _
  · exact receives _
  all_goals exact a

theorem sealingHeld_trigger {s : State} (a : s.sealingHeld) (i : Fin 8) (source : Nat) (t : Tick) :
    (trigger i source t s).1.sealingHeld := by
  unfold trigger
  split
  · exact a
  · exact sealingHeld_raise a _ _
  · split
    · rw [triggered_eq]
      exact sealingHeld_updated a .inl
    · exact a
  · split
    · cases policy : (s.slot i).config.retrigger with
      | ignore =>
        rw [retriggered_of_ignore _ policy]
        exact sealingHeld_updated a .inl
      | extend =>
        rw [retriggered_of_extend _ policy]
        exact sealingHeld_updated a .inl
    · exact a

theorem sealingHeld_countGap {s : State} (a : s.sealingHeld) (i : Fin 8) : (countGap i s).sealingHeld := by
  unfold countGap
  split
  · exact sealingHeld_setRecord a id
  · exact a

/-! ## Watches, turns and frames -/

theorem sealingHeld_watchSample {s : State} (a : s.sealingHeld) (w : Fin 32) (v : Sample) (t : Tick) :
    (watchSample w v t s).sealingHeld := by
  have fires : ∀ u : State, u.sealingHeld → (fireWatch w t u).sealingHeld := fun u b => by
    have asks : (requestTrigger w t u).1.sealingHeld := by
      unfold requestTrigger
      split
      · exact sealingHeld_trigger b _ _ _
      · exact b
    refine sealingHeld_raise (sealingHeld_congr asks ?_) _ _
    exact ⟨rfl, rfl, rfl, rfl⟩
  have moved : (s.setWatch w ((s.watch w).onSample v t).1).sealingHeld := sealingHeld_congr a ⟨rfl, rfl, rfl, rfl⟩
  unfold watchSample
  dsimp only
  split
  · exact fires _ moved
  · exact moved

theorem sealingHeld_takeTurn {s : State} (a : s.sealingHeld) : (takeTurn s).sealingHeld := by
  have moved : ∀ x : Option Handing, ({ s with handing := x } : State).sealingHeld :=
    fun x => sealingHeld_congr a ⟨rfl, rfl, rfl, rfl⟩
  unfold takeTurn
  split
  · exact a
  · split
    · exact moved none
    · split
      · unfold handToWatch
        split
        · exact sealingHeld_watchSample (moved _) _ _ _
        · exact moved _
      · unfold handToSlot
        split
        · exact sealingHeld_slotSample (moved _) _ _ _
        · exact moved _

theorem sealingHeld_finishHanding {s : State} (a : s.sealingHeld) : (finishHanding s).sealingHeld := by
  have turns : ∀ n (u : State), u.sealingHeld → (takeTurns n u).sealingHeld := fun n => by
    induction n with
    | zero => exact fun _ b => b
    | succ n ih => exact fun u b => ih _ (sealingHeld_takeTurn b)
  unfold finishHanding
  split
  · exact a
  · exact sealingHeld_congr (turns _ s a) ⟨rfl, rfl, rfl, rfl⟩

theorem sealingHeld_takeFrame {s : State} (a : s.sealingHeld) (e : Fin 64) (f : Frame) : (takeFrame e f s).sealingHeld := by
  have gap : ∀ (b : Option (Fin 8)) (u : State), u.sealingHeld → (takeGap e b u).sealingHeld := fun b u c => by
    have restarted : (restartWatches e u).sealingHeld := sealingHeld_congr c (by simp)
    unfold takeGap
    split
    · exact sealingHeld_countGap restarted _
    · exact restarted
  have took : (s.setChannel e ((s.channel e).took (sampleSequence f) (sampleTimestamp f))).sealingHeld :=
    sealingHeld_congr a ⟨rfl, rfl, rfl, rfl⟩
  unfold takeFrame
  dsimp only
  split
  · exact sealingHeld_congr (gap _ _ took) ⟨rfl, rfl, rfl, rfl⟩
  · exact sealingHeld_congr took ⟨rfl, rfl, rfl, rfl⟩

/-! ## Symbols -/

theorem sealingHeld_routeU {s : State} (a : s.sealingHeld) (f : Frame) : (routeU f s).sealingHeld := by
  have forwarded : (forwardU2D f s).sealingHeld := sealingHeld_congr a (by simp)
  unfold routeU offerToMap
  dsimp only
  split
  · split
    · exact sealingHeld_takeFrame forwarded _ f
    · exact forwarded
  · exact forwarded

theorem sealingHeld_frameEnd {s : State} (a : s.sealingHeld) (p : Port) (f : RxFrame) : (frameEnd p f s).sealingHeld := by
  have closed : (s.setPort p { s.port p with frame := none }).sealingHeld := sealingHeld_congr a (by simp)
  unfold frameEnd
  dsimp only
  split
  · exact closed
  · cases p with
    | u => exact sealingHeld_routeU closed f.octets
    | d => exact sealingHeld_congr closed (by simp [route])

theorem sealingHeld_upSymbol {s : State} (a : s.sealingHeld) (p : Port) (symbol : Symbol) :
    (upSymbol p symbol s).sealingHeld := by
  have assembles : ∀ u : State, u.sealingHeld → (assemble p symbol u).sealingHeld := fun u b => by
    unfold assemble
    split
    case h_4 f _ => exact sealingHeld_frameEnd b p f
    all_goals exact sealingHeld_congr b (by simp)
  unfold upSymbol
  dsimp only
  split
  · exact sealingHeld_congr a (by simp)
  · exact assembles _ (sealingHeld_congr a (by simp))

/-- A symbol reaches the slots only by the END of a frame. -/
theorem sealingHeld_receiveSymbol {s : State} (a : s.sealingHeld) (p : Port) (symbol : Symbol) :
    (receiveSymbol p symbol s).sealingHeld := by
  have settled : (settleEarlier p symbol s).sealingHeld := by
    unfold settleEarlier
    split
    · exact sealingHeld_finishHanding a
    · exact a
  unfold receiveSymbol
  split
  case h_3 => exact sealingHeld_upSymbol settled p symbol
  all_goals exact sealingHeld_congr a (by simp)

/-! ## WRITE -/

/-- A WRITE to the slot table changes configurations alone (R55). -/
theorem sealingHeld_writeSlots {s : State} (a : s.sealingHeld) (r : Request) : (writeSlots r s).1.sealingHeld := by
  have written : ({ s with slots := writtenSlots r s } : State).sealingHeld := by
    refine sealingHeld_of_records a a.1 (fun _ _ => id) fun i h seals => .inl ?_
    rw [State.record, slot_of_writtenSlots rfl, record_with_config] at seals
    exact seals
  unfold writeSlots
  split
  · exact a
  · split
    · exact a
    · exact written

theorem sealingHeld_setCountTable {s : State} (a : s.sealingHeld) (on : Bool) (base : MemAddr) :
    (setCountTable on base s).sealingHeld := by
  have tabled : (s.withTable on base).sealingHeld := sealingHeld_congr a ⟨rfl, rfl, rfl, rfl⟩
  cases on with
  | true =>
    by_cases still : s.capture.tableOn = true ∧ base = s.capture.tableBase
    · rw [setCountTable_of_kept still.1 still.2]
      exact tabled
    · rw [setCountTable_of_moved (by simpa using not_and_or.mp still)]
      exact sealingHeld_markAll tabled
  | false =>
    cases wasOn : s.capture.tableOn with
    | true =>
      rw [setCountTable_of_discarded wasOn]
      exact sealingHeld_congr tabled ⟨rfl, rfl, rfl, rfl⟩
    | false =>
      rw [setCountTable_of_off wasOn]
      exact tabled

theorem sealingHeld_writeControl {s : State} (a : s.sealingHeld) (r : Request) : (writeControl r s).1.sealingHeld := by
  have moded : (writeMode r s).sealingHeld := sealingHeld_congr a ⟨rfl, rfl, rfl, rfl⟩
  have counted : (writeCountSettings r (writeMode r s)).sealingHeld := by
    rw [writeCountSettings_eq]
    exact sealingHeld_setCountTable moded _ _
  unfold writeControl
  split
  · exact a
  · exact sealingHeld_congr counted (by simp [writeSettings, acceptedWith])

theorem sealingHeld_runWrite {s : State} (a : s.sealingHeld) (i : Fin 4) (r : Request) : (runWrite i r s).1.sealingHeld := by
  unfold runWrite
  split
  · exact a
  · unfold writeOwner
    split
    case h_1 => exact sealingHeld_writeControl a r
    case h_4 => exact sealingHeld_writeSlots a r
    case h_7 => exact a
    all_goals refine sealingHeld_congr a ?_
    · unfold writeMap
      (repeat' split) <;> simp [refusedWith, acceptedWith]
    · unfold writeWatches
      (repeat' split) <;> simp [refusedWith, acceptedWith]
    · unfold writeNotice
      split <;> simp [refusedWith, acceptedWith]
    · unfold writeTiming
      (repeat' split) <;> simp [refusedWith, acceptedWith]

/-! ## Commands on slots -/

theorem sealingHeld_armTakes {s : State} (a : s.sealingHeld) (i : Fin 8) : (armTakes i s).sealingHeld := by
  unfold armTakes
  split
  · exact sealingHeld_armHalf a i _
  · split
    · exact sealingHeld_armHalf a i _
    · split
      · exact sealingHeld_armReclaim a i _
      all_goals exact sealingHeld_toRest a i .stalled

theorem sealingHeld_armSlot {s : State} (a : s.sealingHeld) (i : Fin 8) : (armSlot i s).1.sealingHeld := by
  have rests : (withdrawHold s).restsFree := by
    intro rests
    refine a.1 ?_
    by_cases entering : s.ctl.state = .entering
    · simp [withdrawHold, entering] at rests
    · simpa [withdrawHold, entering] using rests
  unfold armSlot
  split
  · exact a
  · exact sealingHeld_armTakes (sealingHeld_of_burst a rests ⟨rfl, rfl, rfl⟩) i

theorem sealingHeld_disarmSlot {s : State} (a : s.sealingHeld) (i : Fin 8) : (disarmSlot i s).1.sealingHeld := by
  unfold disarmSlot
  split
  · exact a
  · exact sealingHeld_emptyHalf (sealingHeld_toRest a i .idle) i _
  · exact sealingHeld_truncate a i _
  all_goals exact sealingHeld_toRest a i .idle

theorem sealingHeld_releaseHalf {s : State} (a : s.sealingHeld) (i : Fin 8) (h : Half) : (releaseHalf i h s).1.sealingHeld := by
  have removed := sealingHeld_removeIndex a i h
  unfold releaseHalf releaseFull
  split
  · split
    · exact sealingHeld_takeHalf removed i h
    · exact sealingHeld_emptyHalf removed i h
  · exact a

/-- After RESET-CAPTURE every half is EMPTY (R98). -/
theorem sealingHeld_resetCapture {s : State} (a : s.sealingHeld) : (resetCapture s).1.sealingHeld := by
  have cleared : (clearCapture s).sealingHeld := by
    have empty : ∀ i h, (clearCapture s).record i h = CaptureRecord.cleared .empty := fun i h => by
      rw [State.record, clearCapture_slot]
      cases h <;> rfl
    refine ⟨by simpa only [State.restsFree, clearCapture_keeps] using a.1, fun i h seals => ?_⟩
    simp [empty, CaptureRecord.cleared] at seals
  have marked : (clearAndMark s).sealingHeld := by
    unfold clearAndMark
    split
    · exact sealingHeld_markAll cleared
    · exact cleared
  rw [resetCapture_eq]
  exact sealingHeld_congr marked (by simp)

/-! ## Commands on the memory -/

theorem sealingHeld_memStart {s : State} (a : s.sealingHeld) : (memStart s).1.sealingHeld := by
  by_cases uninit : s.ctl.state = .uninit
  · have free := a.1 (.inl uninit)
    rw [memStart_of_uninit uninit]
    exact sealingHeld_of_burst a (by simp [State.restsFree])
      ⟨rfl, rfl, (burstEntries_of_op (c := s.ctl) (by simp [free])).symm⟩
  · rw [memStart_of_started uninit]
    exact a

theorem sealingHeld_memHold {s : State} (a : s.sealingHeld) : (memHold s).1.sealingHeld := by
  unfold memHold
  split
  · split
    · exact a
    · refine sealingHeld_chooseMem (sealingHeld_of_burst a ?_ ⟨rfl, rfl, rfl⟩)
      simp [State.restsFree]
  all_goals exact a

/-! ## Commands that leave queue and port as they are -/

@[simp] theorem runRead_port (i : Fin 4) (r : Request) (s : State) :
    (runRead i r s).1.queue = s.queue ∧ (runRead i r s).1.ctl = s.ctl := by
  unfold runRead
  split <;> exact ⟨rfl, rfl⟩

@[simp] theorem runFetch_port (i : Fin 4) (r : Request) (s : State) :
    (runFetch i r s).1.queue = s.queue ∧ (runFetch i r s).1.ctl.state = s.ctl.state ∧ (runFetch i r s).1.ctl.op = s.ctl.op := by
  unfold runFetch
  split <;> exact ⟨rfl, rfl, rfl⟩

@[simp] theorem enableWatch_port (w : Fin 32) (s : State) :
    (enableWatch w s).1.queue = s.queue ∧ (enableWatch w s).1.ctl = s.ctl := by
  unfold enableWatch
  (repeat' split) <;> exact ⟨rfl, rfl⟩

@[simp] theorem disableWatch_port (w : Fin 32) (s : State) :
    (disableWatch w s).1.queue = s.queue ∧ (disableWatch w s).1.ctl = s.ctl := ⟨rfl, rfl⟩

@[simp] theorem setGate_port (isOpen : Bool) (s : State) :
    (setGate isOpen s).1.slots = s.slots ∧ (setGate isOpen s).1.queue = s.queue ∧ (setGate isOpen s).1.ctl = s.ctl :=
  ⟨rfl, rfl, rfl⟩

@[simp] theorem ackNotice_port (c : Fin 8) (mask : BitVec 32) (s : State) :
    (ackNotice c mask s).1.queue = s.queue ∧ (ackNotice c mask s).1.ctl = s.ctl := by
  simp [ackNotice, acceptedWith]

@[simp] theorem clearFaultRecord_port (s : State) :
    (clearFaultRecord s).1.queue = s.queue ∧ (clearFaultRecord s).1.ctl = s.ctl := ⟨rfl, rfl⟩

@[simp] theorem realign_port (p : Port) (s : State) : (realign p s).1.queue = s.queue ∧ (realign p s).1.ctl = s.ctl := by
  unfold realign
  dsimp only
  split <;> simp [acceptedWith]

/-! ## Ends of operations (R102, R111, R114, R115, R120, R123, R127) -/

/-- The entries of a burst all belong to the half of the first (R101). -/
theorem belongs_of_burstShape {e : QueueEntry} {rest : List QueueEntry} (shape : burstShape (e :: rest)) :
    ∀ f ∈ e :: rest, f.slot = e.slot ∧ f.half = e.half := by
  obtain ⟨-, -, chain⟩ := shape
  induction rest generalizing e with
  | nil => simp
  | cons g rest ih =>
    obtain ⟨⟨slot, half, -⟩, later⟩ := List.isChain_cons_cons.mp chain
    refine List.forall_mem_cons.mpr ⟨⟨rfl, rfl⟩, fun f m => ?_⟩
    obtain ⟨fSlot, fHalf⟩ := ih later f m
    exact ⟨fSlot.trans slot, fHalf.trans half⟩

/-- At a burst's end its half is no longer SEALING, or has an entry in the queue (R83). -/
theorem sealAtEnd_queued {s : State} (i : Fin 8) (h : Half) (seals : ((sealAtEnd i h s).record i h).state = .sealing) :
    ∃ f ∈ s.queue, f.slot = i ∧ f.half = h := by
  by_cases fills : s.burstFills i h
  · rw [sealAtEnd_of_fills fills] at seals
    by_cases reclaims : (s.slot i).live.state = .stalled ∧ (s.slot i).config.full = .overwrite
    · rw [(halfFull_reclaimed h reclaims).1] at seals
      cases seals
    · rw [(halfFull_kept h reclaims).1] at seals
      cases seals
  · rw [sealAtEnd_of_short fills] at seals
    by_contra alone
    push Not at alone
    exact fills ⟨seals, fun f m own => alone f m own.1 own.2⟩

/-- The half of a burst that ends waits in the queue or has become FULL; any other waits in the queue, as the burst has no entry
of it. -/
theorem sealingHeld_endBurst {s : State} (a : s.sealingHeld) {entries : List QueueEntry}
    (op : s.ctl.op = some (.burst entries)) (shape : burstShape entries) : (endBurst entries s).sealingHeld := by
  cases entries with
  | nil => exact absurd shape.1 (by simp)
  | cons e rest =>
    have busy : s.ctl.op ≠ none := by simp [op]
    have awake : s.ctl.state ≠ .hold := fun hold => busy (a.1 (.inr hold))
    obtain ⟨queue, -⟩ := burstEnded_waits (e :: rest) e.slot e.half busy awake
    obtain ⟨slots, -⟩ := burstEnded_tables (e :: rest) e.slot e.half s
    obtain ⟨others, other⟩ := burstEnded_others (e :: rest) e.slot e.half s
    refine sealingHeld_chooseMem (s := { burstEnded (e :: rest) e.slot e.half s with
      ctl := { (burstEnded (e :: rest) e.slot e.half s).ctl with op := none } }) ⟨fun _ => rfl, fun i h seals => ?_⟩
    refine (halfWaits_iff _ _ _).mpr (.inl ?_)
    have seals : ((burstEnded (e :: rest) e.slot e.half s).record i h).state = .sealing := seals
    change ∃ f ∈ (burstEnded (e :: rest) e.slot e.half s).queue, f.slot = i ∧ f.half = h
    rw [queue]
    by_cases own : i = e.slot ∧ h = e.half
    · obtain ⟨rfl, rfl⟩ := own
      rw [record_congr slots] at seals
      exact sealAtEnd_queued (s := burstWritten (e :: rest) s) e.slot e.half seals
    · have before : (s.record i h).state = .sealing := by
        by_cases same : i = e.slot
        · have half : h = e.half.other := (half_eq_or_other h e.half).resolve_left fun k => own ⟨same, k⟩
          subst same half
          rwa [other] at seals
        · rwa [State.record, others i same] at seals
      rcases (halfWaits_iff s i h).mp (a.2 i h before) with queued | ⟨l, running, f, m, here⟩
      · exact queued
      · rw [op] at running
        cases running
        obtain ⟨slot, half⟩ := belongs_of_burstShape shape f m
        exact absurd ⟨here.1.symm.trans slot, here.2.symm.trans half⟩ own

/-! ## Every command -/

theorem sealingHeld_settle {s : State} (a : s.sealingHeld) (i : Fin 4) (t : Taken) (reply : Reply) :
    (settle i t reply s).sealingHeld := by
  cases reply with
  | answer status words => exact sealingHeld_congr a (by simp [settle])
  | placed => exact sealingHeld_workArrives (sealingHeld_congr a (by simp))

theorem sealingHeld_execute {s : State} (a : s.sealingHeld) (form : Request → Bool) (run : Execution)
    (owner : ∀ i r, (run i r s).1.sealingHeld) : (execute form run s).sealingHeld := by
  rcases execute_cases form run s with same | ⟨i, t, -, -, ⟨status, e⟩ | ⟨-, e⟩⟩
  · rwa [same]
  · rw [e]
    exact sealingHeld_settle a i t _
  · rw [e]
    exact sealingHeld_settle (owner i t.request) i t _

/-- A COMMAND row with an argument. -/
theorem sealingHeld_executeArg {α : Type} {s : State} (a : s.sealingHeld) (form : Request → Bool) (take : MgmtWord → Option α)
    (run : α → State → State × Reply) (owner : ∀ x, (run x s).1.sealingHeld) :
    (execute form (withArg take run) s).sealingHeld := by
  refine sealingHeld_execute a form _ fun i r => ?_
  unfold withArg
  split
  · exact owner _
  · exact a

theorem powerOn_sealingHeld (straps : BitVec 6) (free : Nat) (pending : List Instr) :
    (State.powerOn straps free pending).sealingHeld := by
  refine ⟨fun _ => rfl, fun i h seals => ?_⟩
  rw [powerOn_record] at seals
  cases seals

theorem sealingHeld_exec {s t : State} (c : Instr) (a : s.sealingHeld)
    (shape : ∀ entries, s.ctl.op = some (.burst entries) → burstShape entries) (h : exec c s = .next t) : t.sealingHeld := by
  cases c with
  | powerOnReset straps =>
    cases h
    exact powerOn_sealingHeld straps s.free s.pending
  | tapValue p symbols =>
    cases h
    split
    · exact foldl_inv State.sealingHeld _ (fun _ y k => sealingHeld_receiveSymbol k p y) symbols s a
    · exact a
  | lockedSymbol | receiverUp | tapProvedFalse | oversizeFrame | lossOfAlignment | frameCompletedD =>
    cases h
    split
    · exact sealingHeld_receiveSymbol a _ _
    · exact a
  | symbolReceived p symbol =>
    cases h
    exact sealingHeld_receiveSymbol a p symbol
  | frameCompletedU =>
    cases h
    split
    · exact sealingHeld_finishHanding (sealingHeld_receiveSymbol a .u .endFrame)
    · exact sealingHeld_takeTurn a
  | write | writeChannelMap | writeWatch | writeSlot | writeTimingSet | writeCountTable | writeEnableSet | writeOrderList
  | writeExpressClass | writeCheckMode =>
    cases h
    exact sealingHeld_execute a _ _ (sealingHeld_runWrite a)
  | armSlot =>
    cases h
    exact sealingHeld_executeArg a _ _ _ (sealingHeld_armSlot a)
  | disarmSlot =>
    cases h
    exact sealingHeld_executeArg a _ _ _ (sealingHeld_disarmSlot a)
  | forceTrigger =>
    cases h
    exact sealingHeld_executeArg a _ _ _ fun i => sealingHeld_trigger a i 32 0
  | releaseHalf =>
    cases h
    exact sealingHeld_executeArg a _ _ _ fun x => sealingHeld_releaseHalf a x.1 x.2
  | resetCapture =>
    cases h
    exact sealingHeld_execute a _ _ fun _ _ => sealingHeld_resetCapture a
  | memStart =>
    cases h
    exact sealingHeld_execute a _ _ fun _ _ => sealingHeld_memStart a
  | memHold =>
    cases h
    exact sealingHeld_execute a _ _ fun _ _ => sealingHeld_memHold a
  | read | fetch | clearFault =>
    cases h
    exact sealingHeld_execute a _ _ fun _ _ => sealingHeld_congr a (by simp)
  | enableWatch | disableWatch | gate | ackNotice | realign =>
    cases h
    exact sealingHeld_executeArg a _ _ _ fun _ => sealingHeld_congr a (by simp)
  | burstEnd =>
    cases h
    split
    · rename_i entries op
      exact sealingHeld_endBurst a op (shape entries op)
    · exact a
  | refreshDue =>
    cases h
    split
    · exact sealingHeld_chooseMem (sealingHeld_congr a ⟨rfl, rfl, rfl, rfl⟩)
    · exact a
  | refreshEnd =>
    cases h
    split
    · rename_i op
      exact sealingHeld_chooseMem (sealingHeld_freed a (by simp [op]) rfl (by simp))
    · exact a
  | fetchReadEnd =>
    cases h
    split
    · rename_i op _
      exact sealingHeld_freePort (sealingHeld_congr a (by simp [readDone])) (by simp [readDone, op])
    · exact a
  | countTableWriteEnd =>
    cases h
    split
    · rename_i op
      exact sealingHeld_freePort (sealingHeld_congr a (by simp [countWritten])) (by simp [countWritten, op])
    · exact a
  | initSequenceEnd =>
    cases h
    split
    · rename_i op
      exact sealingHeld_chooseMem (sealingHeld_raise (sealingHeld_freed a (by simp [op]) rfl (by simp)) _ _)
    · exact a
  | closingOperationEnd =>
    cases h
    split
    · rename_i op
      split
      · exact sealingHeld_freed a (by simp [op]) rfl (by simp)
      · exact sealingHeld_chooseMem (sealingHeld_freed a (by simp [op]) rfl (by simp))
    · exact a
  | exitSequenceEnd =>
    cases h
    split
    · rename_i op
      exact sealingHeld_chooseMem (sealingHeld_freed a (by simp [op]) rfl (by simp))
    · exact a
  | pauseEnd | holdoffExpiry | dFrameSent | uFrameSent =>
    cases h
    refine sealingHeld_congr a ?_
    split <;> simp

end Sys2Proof.Machine

open Sys2Proof Sys2Proof.Machine

/-- Settles O12: at every point within a step each SEALING half has an entry that waits, and no burst is on the port of a memory
at rest. -/
theorem stepKeepsSealingHalvesWaiting : Obligations.StepKeepsSealingHalvesWaiting := by
  intro s t memory waits h
  have held : s.sealingHeld := ⟨restsFree_of_memoryAgrees memory, waits⟩
  obtain ⟨-, -, -, shape⟩ := memory
  cases pending : s.pending with
  | nil =>
    rw [step_of_empty pending] at h
    cases h
    exact (sealingHeld_congr held (by simp)).2
  | cons c rest =>
    have runs : step s = exec c (s.withQueue rest) := by simp [step, pending]
    rw [runs] at h
    exact (sealingHeld_exec (s := s.withQueue rest) c (sealingHeld_congr held ⟨rfl, rfl, rfl, rfl⟩) shape h).2
end

section
/-! SUPPORT. ReleaseHalfEmptiesOrRearms: the argument of RELEASE-HALF, and the slot and the mark that a release leaves (R87, R89,
R90, R95). -/

namespace Sys2Proof.Machine

/-! ## The argument (11.5) -/

theorem halfOfNat_number (h : Half) : halfOfNat h.number = some h := by
  cases h <;> rfl

theorem halfOfNat_of_large {n : Nat} (large : 2 ≤ n) : halfOfNat n = none := by
  obtain ⟨m, rfl⟩ := Nat.exists_eq_add_of_le' large
  rfl

theorem bits_halfByte (w : MgmtWord) : bits w 8 8 = w.toNat / 256 % 256 := by
  simp [bits]

theorem releaseArg_of_half {a : MgmtWord} {j : Fin 8} {h : Half} (slot : j.val = a.toNat % 256)
    (half : h.number = a.toNat / 256 % 256) : releaseArg a = some (j, h) := by
  rw [releaseArg, slotArg_of_slot j slot, bits_halfByte, ← half, halfOfNat_number]

theorem releaseArg_of_large {a : MgmtWord} (large : 8 ≤ a.toNat % 256 ∨ 2 ≤ a.toNat / 256 % 256) : releaseArg a = none := by
  rcases large with slot | half
  · rw [releaseArg, slotArg_of_large slot]
  · rw [releaseArg, bits_halfByte, halfOfNat_of_large half]
    cases slotArg a <;> rfl

/-- RELEASE-HALF is answered as its owner answers for the argument. -/
theorem execute_releaseHalf {s u : State} {i : Fin 4} {q : Taken} {status : Status} (h : s.runsCommand 4 i q)
    (owner : withArg releaseArg (fun a => releaseHalf a.1 a.2) i q.request s = (u, .answer status [])) :
    answersWith .releaseHalf s u i q status [] :=
  ⟨_, rfl, execute_answers h.1 (asksFor_of_runsCommand h) owner⟩

/-! ## A release (R89, R90) -/

/-- The slot whose FULL half is released: armed on it when it was STALLED, else with the half EMPTY. -/
def Slot.released (x : Slot) (h : Half) : Slot :=
  if x.live.state = .stalled then x.taken h else x.setRecord h (CaptureRecord.cleared .empty)

theorem released_of_stalled {x : Slot} (h : Half) (stalled : x.live.state = .stalled) : x.released h = x.taken h :=
  if_pos stalled

theorem released_of_notStalled {x : Slot} (h : Half) (other : x.live.state ≠ .stalled) :
    x.released h = x.setRecord h (CaptureRecord.cleared .empty) :=
  if_neg other

/-- Either way the entry leaves the index, the slot changes and the half's count word is marked. -/
theorem releaseFull_eq (i : Fin 8) (h : Half) (s : State) :
    releaseFull i h s = markDirty (countWordOf i h) ((removeIndex i h s).setSlot i ((s.slot i).released h)) := by
  unfold releaseFull Slot.released
  split <;> rfl

theorem releaseHalf_of_full {s : State} {i : Fin 8} {h : Half} (full : (s.record i h).state = .full) :
    releaseHalf i h s =
      (markDirty (countWordOf i h) ((removeIndex i h s).setSlot i ((s.slot i).released h)), .answer .ok []) := by
  rw [releaseHalf, if_pos full, releaseFull_eq]
  rfl

theorem releaseHalf_of_notFull {s : State} {i : Fin 8} {h : Half} (other : (s.record i h).state ≠ .full) :
    releaseHalf i h s = (s, .answer .wrongState []) :=
  if_neg other

end Sys2Proof.Machine

open Sys2Proof Sys2Proof.Machine

/-- Settles O53: the argument, then the state of the half, and for a FULL one whether the slot is STALLED. -/
theorem releaseHalfEmptiesOrRearms : Obligations.ReleaseHalfEmptiesOrRearms := by
  intro s i q runs arg
  refine ⟨fun large => execute_releaseHalf runs ?_, fun j h slot half => ?_⟩
  · rw [withArg, releaseArg_of_large large]
    rfl
  · intro x
    have named : withArg releaseArg (fun a => releaseHalf a.1 a.2) i q.request s = releaseHalf j h s := by
      rw [withArg, releaseArg_of_half slot half]
    refine ⟨fun held => execute_releaseHalf runs (named.trans (releaseHalf_of_notFull held)), fun full =>
      ⟨_, execute_releaseHalf runs (named.trans (releaseHalf_of_full full)), ?_, fun other => ?_, fun stalled => ?_,
        fun off => ?_, fun on busy awake => ?_, ?_⟩⟩
    · simp only [markDirty_keeps]
      rfl
    · simp only [markDirty_keeps]
      rw [released_of_notStalled h other]
      rfl
    · simp only [markDirty_keeps]
      rw [released_of_stalled h stalled]
      rfl
    · rw [markDirty_of_off _ (by exact off)]
      exact ⟨rfl, rfl⟩
    · obtain ⟨queue, ctl⟩ := markDirty_waits (s := (removeIndex j h s).setSlot j (x.released h)) (countWordOf j h) busy awake
      refine ⟨queue, ctl.trans ?_⟩
      exact congrArg (fun d => { s.ctl with dirty := d }) (if_pos on)
    · exact congrArg (fun t : State => { t with slots := s.slots, capture := s.capture, ctl := s.ctl, queue := s.queue })
        (markDirty_frame (countWordOf j h) ((removeIndex j h s).setSlot j (x.released h)))
end

section
/-! SUPPORT. ResetStateIsSound: the predicates that no earlier part has shown of the state after power-on reset. -/

namespace Sys2Proof.Machine

theorem powerOn_slotsAgree (straps : BitVec 6) (free : Nat) (pending : List Instr) :
    (State.powerOn straps free pending).slotsAgree := by
  intro i
  rw [powerOn_slot]
  exact ⟨resetCapture_agrees Slot.reset, resetCapture_countsAgree (x := Slot.reset) reset_valid⟩

theorem powerOn_indexAgrees (straps : BitVec 6) (free : Nat) (pending : List Instr) :
    (State.powerOn straps free pending).indexAgrees := by
  refine ⟨List.nodup_nil, fun i h => ?_⟩
  rw [powerOn_record]
  simp [State.powerOn, CaptureUnit.reset, CaptureRecord.cleared]

theorem powerOn_memoryAgrees (straps : BitVec 6) (free : Nat) (pending : List Instr) :
    (State.powerOn straps free pending).memoryAgrees := by
  refine ⟨rfl, rfl, ⟨iff_of_false nofun nofun, fun hold => ?_, fun _ _ => rfl⟩, fun entries op => ?_⟩
  · cases hold
  · cases op

/-- The memory is UNINIT, where work may wait (R117). -/
theorem powerOn_portBusy (straps : BitVec 6) (free : Nat) (pending : List Instr) :
    (State.powerOn straps free pending).portBusy :=
  ⟨nofun, nofun, nofun⟩

/-- The sets are empty. -/
theorem reset_within_classes (c : Fin 8) :
    NoticeUnit.reset.pending[c] &&& ~~~classSources c = 0 ∧ NoticeUnit.reset.enable[c] &&& ~~~classSources c = 0 := by
  revert c
  decide

theorem reset_orders_every_class (c : Fin 8) : c ∈ NoticeUnit.reset.order.toList := by
  revert c
  decide

theorem powerOn_noticesAgree (straps : BitVec 6) (free : Nat) (pending : List Instr) :
    (State.powerOn straps free pending).noticesAgree :=
  ⟨reset_within_classes, reset_orders_every_class, iff_of_false nofun fun remains => remains rfl, nofun⟩

/-- Nothing is pending, so that no class is eligible. -/
theorem reset_ineligible (c : Fin 8) : NoticeUnit.reset.eligible c = false := by
  revert c
  decide

theorem powerOn_noticeBuilt (straps : BitVec 6) (free : Nat) (pending : List Instr) :
    (State.powerOn straps free pending).noticeBuilt := by
  refine Option.eq_none_iff_forall_ne_some.mpr fun c chosen => ?_
  have eligible := eligible_of_buildChoice chosen
  exact absurd eligible (by simp [State.powerOn, reset_ineligible])

/-- Neither receiver is UP. -/
theorem powerOn_transmitBusy (straps : BitVec 6) (free : Nat) (pending : List Instr) :
    (State.powerOn straps free pending).transmitBusy :=
  ⟨nofun, nofun⟩

/-- Nothing is being sent, every context is FREE and no read is at the controller. -/
theorem powerOn_endpointAgrees (straps : BitVec 6) (free : Nat) (pending : List Instr) :
    (State.powerOn straps free pending).endpointAgrees := by
  refine ⟨⟨nofun, nofun⟩, ⟨fun i n taken => ?_, fun i j n taken => ?_⟩, Nat.zero_le _, fun i => ?_⟩
  · simp [Context.order] at taken
  · simp [Context.order] at taken
  · rw [powerOn_context]
    exact iff_of_false nofun nofun

theorem powerOn_sound (straps : BitVec 6) (free : Nat) (pending : List Instr) : (State.powerOn straps free pending).sound :=
  ⟨rfl, ⟨Nat.zero_le _, Nat.zero_le _, Nat.zero_le _⟩, powerOn_slotsAgree straps free pending,
    powerOn_indexAgrees straps free pending, powerOn_memoryAgrees straps free pending, powerOn_portBusy straps free pending,
    (powerOn_sealingHeld straps free pending).2, powerOn_watchesAgree straps free pending,
    powerOn_mapAgrees straps free pending, powerOn_noticesAgree straps free pending, powerOn_noticeBuilt straps free pending,
    powerOn_transmitBusy straps free pending, powerOn_endpointAgrees straps free pending⟩

end Sys2Proof.Machine

open Sys2Proof Sys2Proof.Machine

/-- Settles O6: a part after power-on reset is sound whatever its straps, and so is the state the machine begins in. -/
theorem resetStateIsSound : Obligations.ResetStateIsSound :=
  powerOn_sound Config.resetStraps 0 []
end

section
/-! SUPPORT. MemoryArbiterFollowsItsOrder: what a decision point of the memory arbiter begins, item by item of R108, and what it leaves
at a free port (R107 to R109, R115, R122). -/

namespace Sys2Proof.Machine

/-! ## When the arbiter chooses (R109) -/

theorem serving_iff (x : MemState) : x.serving = true ↔ x = .ready ∨ x = .entering := by
  cases x <;> simp [MemState.serving]

theorem chooseMem_of_free {s : State} (serving : s.ctl.state.serving = true) (free : s.ctl.op = none) :
    chooseMem s = beginWork s :=
  if_pos ⟨serving, free⟩

/-! ## The lowest-numbered mark (R115) -/

theorem lowestDirty_of_first {c : MemCtl} {w : Fin 16} (set : c.dirty[w] = true) (first : ∀ v : Fin 16, v < w → c.dirty[v] = false) :
    c.lowestDirty = some w := by
  refine List.find?_eq_some_iff_getElem.mpr ⟨set, w.val, by simp, by simp, fun j below => ?_⟩
  have clear := first ⟨j, below.trans w.isLt⟩ below
  simpa using clear

theorem lowestDirty_none (c : MemCtl) : c.lowestDirty = none ↔ ∀ w : Fin 16, c.dirty[w] = false := by
  simp [MemCtl.lowestDirty]

/-! ## The five items of R108 -/

theorem beginWork_of_due {s : State} (due : s.ctl.refreshDue = true) :
    beginWork s = { s with ctl := { s.ctl with op := some .refresh, refreshDue := false } } :=
  if_pos due

theorem beginWork_of_full {s : State} (notDue : s.ctl.refreshDue = false) (full : 64 ≤ s.queue.length) :
    beginWork s = beginBurst s := by
  have full : Config.queueHighWater ≤ s.queue.length := full
  simp only [beginWork, notDue, full, Bool.false_eq_true, if_true, if_false]

theorem beginWork_of_reads {s : State} (notDue : s.ctl.refreshDue = false) (short : s.queue.length < 64) (reads : s.ctl.reads ≠ []) :
    beginWork s = { s with ctl := { s.ctl with op := some .fetchRead } } := by
  have short : ¬ Config.queueHighWater ≤ s.queue.length := Nat.not_le.mpr short
  simp only [beginWork, notDue, short, reads, ne_eq, not_false_eq_true, Bool.false_eq_true, if_true, if_false]

theorem beginWork_of_mark {s : State} {w : Fin 16} (notDue : s.ctl.refreshDue = false) (short : s.queue.length < 64)
    (noReads : s.ctl.reads = []) (mark : s.ctl.lowestDirty = some w) : beginWork s = beginCountWrite w s := by
  have short : ¬ Config.queueHighWater ≤ s.queue.length := Nat.not_le.mpr short
  simp only [beginWork, notDue, short, noReads, mark, ne_eq, not_true_eq_false, Bool.false_eq_true, if_false]

/-- No refresh is due, no read waits and no count word is marked: what is left is the queue, and in ENTERING the closing operation. -/
theorem beginWork_of_queue {s : State} (notDue : s.ctl.refreshDue = false) (short : s.queue.length < 64)
    (noReads : s.ctl.reads = []) (noMark : s.ctl.lowestDirty = none) :
    beginWork s =
      if s.queue ≠ [] then beginBurst s
      else if s.ctl.state = .entering then { s with ctl := { s.ctl with op := some .closing } }
      else s := by
  have short : ¬ Config.queueHighWater ≤ s.queue.length := Nat.not_le.mpr short
  simp only [beginWork, notDue, short, noReads, noMark, ne_eq, not_true_eq_false, Bool.false_eq_true, if_false]

end Sys2Proof.Machine

open Sys2Proof Sys2Proof.Machine

/-- Settles O37: the arbiter's choice, item by item. -/
theorem memoryArbiterFollowsItsOrder : Obligations.MemoryArbiterFollowsItsOrder := by
  intro s c burst
  refine ⟨fun notReady notEntering => ?_, chooseMem_of_busy, fun state free => ?_⟩
  · refine chooseMem_of_notServing (Bool.eq_false_iff.mpr fun serving => ?_)
    exact ((serving_iff _).mp serving).elim notReady notEntering
  · rw [chooseMem_of_free ((serving_iff _).mpr state) free]
    refine ⟨beginWork_of_due, beginWork_of_full, beginWork_of_reads, fun w notDue short noReads set first => ?_,
      fun notDue short noReads unmarked => ?_⟩
    · exact beginWork_of_mark notDue short noReads (lowestDirty_of_first set first)
    · rw [beginWork_of_queue notDue short noReads ((lowestDirty_none _).mpr unmarked)]
      refine ⟨fun waits => if_pos waits, fun empty entering => ?_, fun empty ready => ?_⟩
      · rw [if_neg (not_not.mpr empty), if_pos entering]
      · rw [if_neg (not_not.mpr empty), if_neg (by rw [ready]; nofun)]
end

section
/-! SUPPORT. BurstTakesTheRunAtTheHead: why a burst stops where it does (R101). -/

namespace Sys2Proof.Machine

/-- A run that stops before its room is used up stops at an entry that does not continue it. -/
theorem takeRun_stops {prev last next : QueueEntry} {n : Nat} {q rest : List QueueEntry}
    (ends : (prev :: (takeRun prev n q).1).getLast? = some last) (left : (takeRun prev n q).2 = next :: rest) :
    (takeRun prev n q).1.length = n ∨
      ¬ (next.slot = last.slot ∧ next.half = last.half ∧ next.position = last.position + 1) := by
  induction n generalizing prev q with
  | zero => exact .inl rfl
  | succ n ih =>
    cases q with
    | nil => cases left
    | cons e q =>
      simp only [takeRun] at ends left ⊢
      split at ends
      · rename_i continues
        rw [if_pos continues] at left ⊢
        exact (ih (by simpa using ends) left).imp_left (congrArg (· + 1))
      · rename_i breaks
        rw [if_neg breaks] at left
        cases ends
        cases left
        exact .inr breaks

end Sys2Proof.Machine

open Sys2Proof Sys2Proof.Machine

/-- Settles O38: what a burst takes and leaves is the queue, it has its shape, and it stops at 16 entries or where the run breaks. -/
theorem burstTakesTheRunAtTheHead : Obligations.BurstTakesTheRunAtTheHead := by
  intro q some_entry
  refine ⟨takeBurst_append q, takeBurst_shape some_entry, fun last next rest ends left => ?_⟩
  cases q with
  | nil => exact absurd rfl some_entry
  | cons e q => exact (takeRun_stops ends left).imp_left (congrArg (· + 1))
end

section
/-! SUPPORT. What a command can do to the write queue, the SDRAM, the memory controller, the link, the notice slot and the endpoint: a
chain of moves, said once for every operation and every command. The invariants of queues, memory states, the free port and the endpoint
rest on the moves alone. -/

namespace Sys2Proof.Machine

/-! ## The moves -/

/-- What an operation that commands share can do: nothing to these parts; a notice built, a transmitter's choice, a frame forwarded, a
request refused; work that arrives at the memory controller; the hold request, the start and the timing set of the memory (R61, R93, R107,
R110, R119, R121, R125, R128, R136, R159, R160, R170). -/
inductive SharedMove (s : State) : State → Prop
  | elsewhere {t : State} (queue : t.queue = s.queue) (mem : t.mem = s.mem) (ctl : t.ctl = s.ctl) (link : t.link = s.link)
      (notice : t.notices.noticeSlot = s.notices.noticeSlot)
      (ep : { t.ep with fault := s.ep.fault, mode := s.ep.mode } = s.ep) : SharedMove s t
  | builds : SharedMove s (build s)
  | choosesD : SharedMove s (dChoose s)
  | choosesU : SharedMove s (uChoose s)
  | forwardsD (f : Frame) (room : s.link.u2d.length < 8) :
      SharedMove s { s with link := { s.link with u2d := s.link.u2d ++ [f] } }
  | forwardsU (f : Frame) (room : s.link.d2u.length < 8) :
      SharedMove s { s with link := { s.link with d2u := s.link.d2u ++ [f] } }
  | refuses (x : Refused) (empty : s.ep.refusal = none) : SharedMove s { s with ep := { s.ep with refusal := some x } }
  | queues (e : QueueEntry) (room : s.queue.length < 128) : SharedMove s (workArrives { s with queue := s.queue ++ [e] })
  | marks (dirty : Vector Bool 16) : SharedMove s (workArrives { s with ctl := { s.ctl with dirty := dirty } })
  | marksQuietly (w : Fin 16) (withdrawn : s.ctl.holdRequest = false) : SharedMove s (chooseMem (setMark w s))
  | unmarks : SharedMove s { s with ctl := { s.ctl with dirty := Vector.replicate 16 false } }
  | withdraws : SharedMove s (withdrawHold s)
  | starts (uninit : s.ctl.state = .uninit) :
      SharedMove s { s with ctl := { s.ctl with state := .init, effect := s.ctl.written, op := some .initSequence } }
  | holds (ready : s.ctl.state = .ready) :
      SharedMove s (chooseMem { s with ctl := { s.ctl with holdRequest := true, state := .entering } })
  | times (set : TimingSet) (rests : s.ctl.state = .uninit ∨ s.ctl.state = .hold) :
      SharedMove s { s with ctl := { s.ctl with written := set } }
  | fallsDue (runs : s.ctl.timer.running = true) :
      SharedMove s (chooseMem { s with ctl := { s.ctl with refreshDue := true, timer := s.ctl.loadedTimer } })
  | clears : SharedMove s (clearCapture s)

/-- What a command can do beside: a request taken, answered, or left READING with its read placed; a frame sent; an operation on the memory
port ended; power-on reset (R102, R111, R112, R114, R115, R120, R123, R127, R153, R169, R171). -/
inductive CommandMove (s : State) : State → Prop
  | shares {t : State} (move : SharedMove s t) : CommandMove s t
  | accepts (i : Fin 4) (r : Request) (free : s.context i = .free) : CommandMove s (acceptRequest i r s)
  | answers (i : Fin 4) (q : Taken) (status : Status) (words : List MgmtWord) (waiting : s.context i = .waiting q) :
      CommandMove s (s.setContext i (answered q status words))
  | places (i : Fin 4) (q : Taken) (waiting : s.context i = .waiting q) (alone : ∀ j, (s.context j).isReading = false) :
      CommandMove s (workArrives ((placeRead i q.request s).setContext i (.reading q)))
  | sendsD (x : DSending) (sending : s.link.dSending = some x) : CommandMove s (clearDOut (freeHolder x.holder s))
  | sendsU (f : Frame) (sending : s.link.uSending = some f) : CommandMove s (clearUOut s)
  | endsBurst (entries : List QueueEntry) (op : s.ctl.op = some (.burst entries)) : CommandMove s (endBurst entries s)
  | endsRead (r : FetchRead) (rest : List FetchRead) (op : s.ctl.op = some .fetchRead) (reads : s.ctl.reads = r :: rest) :
      CommandMove s (endRead r rest s)
  | endsCount (w : Fin 16) (a : MemAddr) (v : MemWord) (op : s.ctl.op = some (.countWrite w a v)) :
      CommandMove s (freePort (countWritten a v s))
  | endsClosed (op : s.ctl.op = some .refresh ∨ s.ctl.op = some .closing) : CommandMove s (chooseMem (endClosed s))
  | entersHold (op : s.ctl.op = some .closing) (request : s.ctl.holdRequest = true) (idle : s.workWaits = false) :
      CommandMove s (enterHold (endClosed s))
  | endsInit (op : s.ctl.op = some .initSequence) :
      CommandMove s (chooseMem (raise classState srcMemoryReady (enterReady .ready s)))
  | endsExit (modeSet : Bool) (op : s.ctl.op = some (.exitSequence modeSet)) :
      CommandMove s (chooseMem (enterReady (if s.ctl.holdRequest then .entering else .ready) s))
  | resets (straps : BitVec 6) : CommandMove s (State.powerOn straps s.free s.pending)

/-- Any number of moves of shared operations, one after the other. -/
def SharedMoves : State → State → Prop :=
  Relation.ReflTransGen SharedMove

/-- Any number of moves, one after the other. -/
def CommandMoves : State → State → Prop :=
  Relation.ReflTransGen CommandMove

theorem SharedMoves.refl (s : State) : SharedMoves s s :=
  Relation.ReflTransGen.refl

theorem SharedMoves.trans {s t u : State} (m : SharedMoves s t) (n : SharedMoves t u) : SharedMoves s u :=
  Relation.ReflTransGen.trans m n

theorem SharedMove.one {s t : State} (m : SharedMove s t) : SharedMoves s t :=
  .single m

/-- What every move of a shared operation keeps, every chain of them keeps. -/
theorem SharedMoves.keep {p : State → Prop} (move : ∀ s t, SharedMove s t → p s → p t) {s t : State} (m : SharedMoves s t)
    (h : p s) : p t := by
  induction m with
  | refl => exact h
  | tail _ one ih => exact move _ _ one ih

theorem SharedMoves.command {s t : State} (m : SharedMoves s t) : CommandMoves s t :=
  Relation.ReflTransGen.mono (fun _ _ move => CommandMove.shares move) s t m

theorem CommandMoves.refl (s : State) : CommandMoves s s :=
  Relation.ReflTransGen.refl

theorem CommandMoves.trans {s t u : State} (m : CommandMoves s t) (n : CommandMoves t u) : CommandMoves s u :=
  Relation.ReflTransGen.trans m n

theorem CommandMove.one {s t : State} (m : CommandMove s t) : CommandMoves s t :=
  .single m

/-- What every move keeps, every chain of moves keeps. -/
theorem CommandMoves.keep {p : State → Prop} (move : ∀ s t, CommandMove s t → p s → p t) {s t : State} (m : CommandMoves s t)
    (h : p s) : p t := by
  induction m with
  | refl => exact h
  | tail _ one ih => exact move _ _ one ih

/-- An operation that touches none of the parts that the moves speak of. -/
theorem sharedMoves_of_eq {s t : State} (same : t.queue = s.queue ∧ t.mem = s.mem ∧ t.ctl = s.ctl ∧ t.link = s.link ∧
    t.notices.noticeSlot = s.notices.noticeSlot ∧ t.ep = s.ep) : SharedMoves s t := by
  obtain ⟨queue, mem, ctl, link, notice, ep⟩ := same
  exact SharedMove.one (.elsewhere queue mem ctl link notice (by rw [ep]))

theorem SharedMoves.built {s t : State} (m : SharedMoves s t) : SharedMoves s (build t) :=
  m.trans (SharedMove.one .builds)

theorem SharedMoves.raised {s t : State} {c : Fin 8} {n : Fin 32} (m : SharedMoves s t) : SharedMoves s (raise c n t) :=
  (m.trans (sharedMoves_of_eq (t := { t with notices := t.notices.withPending c n }) ⟨rfl, rfl, rfl, rfl, rfl, rfl⟩)).built

/-! ## What the shared operations leave of the endpoint and the reads -/

/-- No shared operation places a read, ends one, or changes a context. -/
theorem sharedMove_keeps_contexts {s t : State} (m : SharedMove s t) :
    t.ep.contexts = s.ep.contexts ∧ t.ep.accepted = s.ep.accepted ∧ t.ep.nodeAddress = s.ep.nodeAddress ∧
      t.ctl.reads = s.ctl.reads ∧ t.mem = s.mem := by
  cases m with
  | elsewhere queue mem ctl link notice ep =>
    have contexts := congrArg Endpoint.contexts ep
    have accepted := congrArg Endpoint.accepted ep
    have node := congrArg Endpoint.nodeAddress ep
    exact ⟨contexts, accepted, node, congrArg MemCtl.reads ctl, mem⟩
  | builds | choosesD | choosesU | queues | marks | marksQuietly | holds | fallsDue | clears => simp [setMark]
  | forwardsD | forwardsU | refuses | unmarks | withdraws | starts | times => exact ⟨rfl, rfl, rfl, rfl, rfl⟩

theorem sharedMoves_keep_contexts {s t : State} (m : SharedMoves s t) :
    t.ep.contexts = s.ep.contexts ∧ t.ep.accepted = s.ep.accepted ∧ t.ep.nodeAddress = s.ep.nodeAddress ∧
      t.ctl.reads = s.ctl.reads ∧ t.mem = s.mem := by
  induction m with
  | refl => exact ⟨rfl, rfl, rfl, rfl, rfl⟩
  | tail _ one ih =>
    obtain ⟨contexts, accepted, node, reads, mem⟩ := sharedMove_keeps_contexts one
    obtain ⟨contexts', accepted', node', reads', mem'⟩ := ih
    exact ⟨contexts.trans contexts', accepted.trans accepted', node.trans node', reads.trans reads', mem.trans mem'⟩

theorem context_of_contexts {s t : State} (h : t.ep.contexts = s.ep.contexts) (i : Fin 4) : t.context i = s.context i := by
  simp only [State.context, h]

/-! ## Marks (R93, R95, R115) -/

theorem sharedMoves_markDirty (w : Fin 16) (s : State) : SharedMoves s (markDirty w s) := by
  unfold markDirty
  split
  · exact SharedMove.one (.marks _)
  · exact .refl s

theorem sharedMoves_markQuietly {s : State} (w : Fin 16) (withdrawn : s.ctl.holdRequest = false) :
    SharedMoves s (markQuietly w s) := by
  unfold markQuietly
  split
  · exact SharedMove.one (.marksQuietly w withdrawn)
  · exact .refl s

theorem sharedMoves_markAll (s : State) : SharedMoves s (markAll s) :=
  SharedMove.one (.marks _)

/-! ## Halves taken, given back and listed -/

theorem sharedMoves_takeHalf (i : Fin 8) (h : Half) (s : State) : SharedMoves s (takeHalf i h s) :=
  (sharedMoves_of_eq (t := activate i h s) (by simp)).trans (sharedMoves_markDirty _ _)

theorem sharedMoves_armHalf {s : State} (i : Fin 8) (h : Half) (withdrawn : s.ctl.holdRequest = false) :
    SharedMoves s (armHalf i h s) :=
  (sharedMoves_of_eq (t := activate i h s) (by simp)).trans (sharedMoves_markQuietly _ withdrawn)

theorem sharedMoves_emptyHalf (i : Fin 8) (h : Half) (s : State) : SharedMoves s (emptyHalf i h s) :=
  (sharedMoves_of_eq (t := s.setRecord i h (.cleared .empty)) (by simp)).trans (sharedMoves_markDirty _ _)

theorem sharedMoves_removeIndex (i : Fin 8) (h : Half) (s : State) : SharedMoves s (removeIndex i h s) :=
  sharedMoves_of_eq (by simp)

theorem sharedMoves_toRest (i : Fin 8) (state : SlotState) (s : State) : SharedMoves s (toRest i state s) :=
  sharedMoves_of_eq (by simp)

theorem sharedMoves_reclaim (i : Fin 8) (h : Half) (s : State) : SharedMoves s (reclaim i h s) :=
  SharedMoves.raised ((sharedMoves_removeIndex i h s).trans (sharedMoves_takeHalf i h _))

theorem sharedMoves_armReclaim {s : State} (i : Fin 8) (h : Half) (withdrawn : s.ctl.holdRequest = false) :
    SharedMoves s (armReclaim i h s) :=
  SharedMoves.raised ((sharedMoves_removeIndex i h s).trans (sharedMoves_armHalf i h withdrawn))

theorem sharedMoves_listFull (i : Fin 8) (h : Half) (s : State) : SharedMoves s (listFull i h s) :=
  SharedMoves.raised (sharedMoves_of_eq ⟨rfl, rfl, rfl, rfl, rfl, rfl⟩)

theorem sharedMoves_halfFull (i : Fin 8) (h : Half) (s : State) : SharedMoves s (halfFull i h s) := by
  unfold halfFull
  split
  · exact (sharedMoves_listFull i h s).trans (sharedMoves_reclaim i h _)
  · exact sharedMoves_listFull i h s

theorem sharedMoves_sealIfWritten (i : Fin 8) (h : Half) (s : State) : SharedMoves s (sealIfWritten i h s) := by
  unfold sealIfWritten
  split
  · exact sharedMoves_halfFull i h s
  · exact .refl s

theorem sharedMoves_sealAtEnd (i : Fin 8) (h : Half) (s : State) : SharedMoves s (sealAtEnd i h s) := by
  unfold sealAtEnd
  split
  · exact sharedMoves_halfFull i h s
  · exact .refl s

/-- All that the end of a burst does between the words written and the free port. -/
theorem sharedMoves_burstEnded (entries : List QueueEntry) (i : Fin 8) (h : Half) (s : State) :
    SharedMoves (burstWritten entries s) (burstEnded entries i h s) :=
  (sharedMoves_sealAtEnd i h _).trans (sharedMoves_markDirty _ _)

/-! ## Completion (R71, R72) -/

theorem sharedMoves_nextHalf (i : Fin 8) (other : Half) (s : State) : SharedMoves s (nextHalf i other s) := by
  unfold nextHalf
  split
  · exact sharedMoves_takeHalf i other s
  · exact sharedMoves_reclaim i other s
  all_goals exact sharedMoves_toRest i .stalled s

theorem sharedMoves_complete (i : Fin 8) (h : Half) (s : State) : SharedMoves s (complete i h s) :=
  (sharedMoves_of_eq (t := s.setSlot i ((s.slot i).sealed h)) (by simp)).trans (sharedMoves_nextHalf i _ _)

theorem sharedMoves_truncate (i : Fin 8) (h : Half) (s : State) : SharedMoves s (truncate i h s) :=
  SharedMoves.trans (sharedMoves_of_eq (by simp)) (sharedMoves_sealIfWritten i h _)

/-! ## A slot's sample, triggers and gaps -/

theorem sharedMoves_afterPost (i : Fin 8) (h : Half) (s : State) : SharedMoves s (afterPost i h s) := by
  unfold afterPost
  split
  · exact sharedMoves_complete i h s
  · split
    · exact SharedMoves.raised (sharedMoves_of_eq (by simp))
    · exact .refl s

theorem sharedMoves_storeSample {s : State} (i : Fin 8) (h : Half) (v : Sample) (t : Tick) (room : s.queue.length < 128) :
    SharedMoves s (storeSample i h v t s) := by
  have queued : SharedMoves s (s.sampleQueued i h v) := SharedMove.one (.queues _ room)
  have stored : SharedMoves s ((s.sampleQueued i h v).setSlot i ((s.slot i).stored h t)) :=
    queued.trans (sharedMoves_of_eq (by simp))
  unfold storeSample
  dsimp only
  split
  · exact stored.trans (sharedMoves_afterPost i h _)
  · exact stored

theorem sharedMoves_slotSample (i : Fin 8) (v : Sample) (t : Tick) (s : State) : SharedMoves s (slotSample i v t s) := by
  have receives : ∀ h, SharedMoves s
      (if Config.queueCapacity ≤ s.queue.length then loseSample i h s else storeSample i h v t s) := fun h => by
    split
    · exact SharedMoves.raised (sharedMoves_of_eq (by simp))
    · rename_i room
      exact sharedMoves_storeSample i h v t (Nat.lt_of_not_le room)
  unfold slotSample
  split
  · exact receives _
  · exact receives _
  all_goals exact .refl s

theorem sharedMoves_trigger (i : Fin 8) (source : Nat) (t : Tick) (s : State) : SharedMoves s (trigger i source t s).1 := by
  unfold trigger
  split
  · exact .refl s
  · exact (SharedMoves.refl s).raised
  all_goals
    split
    · exact sharedMoves_of_eq (by simp)
    · exact .refl s

/-! ## Watches, turns and frames -/

theorem sharedMoves_watchSample (w : Fin 32) (v : Sample) (t : Tick) (s : State) : SharedMoves s (watchSample w v t s) := by
  have fires : ∀ u : State, SharedMoves u (fireWatch w t u) := fun u => by
    have asks : SharedMoves u (requestTrigger w t u).1 := by
      unfold requestTrigger
      split
      · exact sharedMoves_trigger _ _ _ u
      · exact .refl u
    exact SharedMoves.raised (asks.trans (sharedMoves_of_eq ⟨rfl, rfl, rfl, rfl, rfl, rfl⟩))
  have moved : SharedMoves s (s.setWatch w ((s.watch w).onSample v t).1) := sharedMoves_of_eq (by simp)
  unfold watchSample
  dsimp only
  split
  · exact moved.trans (fires _)
  · exact moved

theorem sharedMoves_takeTurn (s : State) : SharedMoves s (takeTurn s) := by
  have moved : ∀ x : Option Handing, SharedMoves s { s with handing := x } :=
    fun x => sharedMoves_of_eq ⟨rfl, rfl, rfl, rfl, rfl, rfl⟩
  unfold takeTurn
  split
  · exact .refl s
  · split
    · exact moved none
    · split
      · unfold handToWatch
        split
        · exact (moved _).trans (sharedMoves_watchSample _ _ _ _)
        · exact moved _
      · unfold handToSlot
        split
        · exact (moved _).trans (sharedMoves_slotSample _ _ _ _)
        · exact moved _

theorem sharedMoves_finishHanding (s : State) : SharedMoves s (finishHanding s) := by
  have turns : ∀ n (u : State), SharedMoves u (takeTurns n u) := fun n => by
    induction n with
    | zero => exact .refl
    | succ n ih => exact fun u => (sharedMoves_takeTurn u).trans (ih _)
  unfold finishHanding
  split
  · exact .refl s
  · exact (turns _ s).trans (sharedMoves_of_eq ⟨rfl, rfl, rfl, rfl, rfl, rfl⟩)

/-! ## Symbols -/

theorem sharedMoves_forwardU2D (f : Frame) (s : State) : SharedMoves s (forwardU2D f s) := by
  unfold forwardU2D
  split
  · rename_i room
    exact (SharedMove.one (.forwardsD f room)).trans (SharedMove.one .choosesD)
  · exact (SharedMoves.refl s).raised

theorem sharedMoves_forwardD2U (f : Frame) (s : State) : SharedMoves s (forwardD2U f s) := by
  unfold forwardD2U
  split
  · rename_i room
    exact (SharedMove.one (.forwardsU f room)).trans (SharedMove.one .choosesU)
  · exact (SharedMoves.refl s).raised

/-- Taking a frame touches the map, the watches and a gap count. -/
theorem sharedMoves_routeU (f : Frame) (s : State) : SharedMoves s (routeU f s) := by
  have forwarded := sharedMoves_forwardU2D f s
  unfold routeU
  dsimp only
  split
  · exact forwarded.trans (sharedMoves_of_eq (by simp))
  · exact forwarded

theorem sharedMoves_goUp (p : Port) (x : PortState) (s : State) : SharedMoves s (goUp p x s) := by
  have up : SharedMoves s (s.setPort p { x with receiver := .up, failures := 0, invalidRun := 0 }) := sharedMoves_of_eq (by simp)
  refine SharedMoves.raised (up.trans ?_)
  cases p with
  | u => exact SharedMove.one .choosesU
  | d => exact SharedMove.one .choosesD

theorem sharedMoves_lockedSymbol (p : Port) (symbol : Symbol) (s : State) : SharedMoves s (lockedSymbol p symbol s) := by
  unfold lockedSymbol
  dsimp only
  split
  · exact sharedMoves_goUp p _ s
  · split <;> exact sharedMoves_of_eq (by simp)

theorem sharedMoves_seekSymbol (p : Port) (symbol : Symbol) (s : State) : SharedMoves s (seekSymbol p symbol s) := by
  have fails : ∀ x, SharedMoves s (failSweep p x s) := fun x => by
    unfold failSweep
    dsimp only
    split
    · split
      · exact SharedMoves.raised (sharedMoves_of_eq (by simp))
      · exact sharedMoves_of_eq (by simp)
    · exact sharedMoves_of_eq (by simp)
  have judges : ∀ x, SharedMoves s (judgeTap p x s) := fun x => by
    unfold judgeTap
    dsimp only
    split
    · exact sharedMoves_of_eq (by simp)
    · split
      · exact sharedMoves_of_eq (by simp)
      · exact fails _
  unfold seekSymbol
  dsimp only
  split
  · exact .refl s
  · split
    · exact sharedMoves_of_eq (by simp)
    · exact judges _

theorem sharedMoves_frameOctet (p : Port) (o : Octet) (f : RxFrame) (s : State) : SharedMoves s (frameOctet p o f s) := by
  unfold frameOctet
  split
  · exact .refl s
  · split
    · exact sharedMoves_of_eq (by simp)
    · exact SharedMoves.raised (sharedMoves_of_eq (by simp))

/-- The context that a request takes is FREE (R169). -/
theorem freeContext_free {s : State} {i : Fin 4} (h : s.freeContext = some i) : s.context i = .free := by
  have free : (s.context i).isFree = true := by simpa using List.find?_some h
  cases c : s.context i <;> simp_all [Context.isFree]

theorem commandMoves_takeRequest (r : Request) (s : State) : CommandMoves s (takeRequest r s) := by
  have fails : SharedMoves s (checkFailure r s) :=
    SharedMoves.raised (SharedMove.one (.elsewhere rfl rfl rfl rfl rfl rfl))
  have refuses : SharedMoves s (refuseRequest r s) := by
    unfold refuseRequest
    split
    · rename_i empty
      exact (SharedMove.one (.refuses _ empty)).trans (SharedMove.one .choosesD)
    · exact .refl s
  have accepts : ∀ i, s.freeContext = some i → CommandMoves s (acceptRequest i r s) :=
    fun i h => CommandMove.one (.accepts i r (freeContext_free h))
  unfold takeRequest
  split
  · exact fails.command
  · split
    · split
      · split
        · exact accepts _ ‹_›
        · exact .refl s
      · exact .refl s
    · split
      · exact accepts _ ‹_›
      · exact refuses.command

theorem commandMoves_routeD (f : Frame) (s : State) : CommandMoves s (routeD f s) := by
  have taken : CommandMoves s (if takenByEndpoint s.ep.nodeAddress f then takeRequest (Request.ofFrame f) s else s) := by
    split
    · exact commandMoves_takeRequest _ s
    · exact .refl s
  unfold routeD
  dsimp only
  split
  · exact taken.trans (sharedMoves_forwardD2U f _).command
  · exact taken

theorem commandMoves_frameEnd (p : Port) (f : RxFrame) (s : State) : CommandMoves s (frameEnd p f s) := by
  have closed : CommandMoves s (s.setPort p { s.port p with frame := none }) :=
    SharedMoves.command (sharedMoves_of_eq (by simp))
  unfold frameEnd
  dsimp only
  split
  · exact closed
  · cases p with
    | u => exact closed.trans (sharedMoves_routeU f.octets _).command
    | d => exact closed.trans (commandMoves_routeD f.octets _)

theorem commandMoves_assemble (p : Port) (symbol : Symbol) (s : State) : CommandMoves s (assemble p symbol s) := by
  unfold assemble
  split
  case h_2 o f _ => exact (sharedMoves_frameOctet p o f s).command
  case h_4 f _ => exact commandMoves_frameEnd p f s
  all_goals exact SharedMoves.command (sharedMoves_of_eq (by simp))

theorem commandMoves_upSymbol (p : Port) (symbol : Symbol) (s : State) : CommandMoves s (upSymbol p symbol s) := by
  have counted : SharedMoves s (s.setPort p { s.port p with invalidRun := upRun symbol (s.port p).invalidRun }) :=
    sharedMoves_of_eq (by simp)
  unfold upSymbol
  dsimp only
  split
  · exact SharedMoves.command (SharedMoves.raised (counted.trans (sharedMoves_of_eq (by simp))))
  · exact counted.command.trans (commandMoves_assemble p symbol _)

theorem commandMoves_receiveSymbol (p : Port) (symbol : Symbol) (s : State) : CommandMoves s (receiveSymbol p symbol s) := by
  have settled : SharedMoves s (settleEarlier p symbol s) := by
    unfold settleEarlier
    split
    · exact sharedMoves_finishHanding s
    · exact .refl s
  unfold receiveSymbol
  split
  · exact (sharedMoves_seekSymbol p symbol s).command
  · exact (sharedMoves_lockedSymbol p symbol s).command
  · exact settled.command.trans (commandMoves_upSymbol p symbol _)
  · exact .refl s

/-! ## The microsecond step -/

theorem sharedMoves_tick (s : State) : SharedMoves s (tick s) :=
  SharedMoves.built (sharedMoves_of_eq ⟨rfl, rfl, rfl, rfl, rfl, rfl⟩)

theorem sharedMoves_ticks (n : Nat) (s : State) : SharedMoves s (ticks n s) := by
  induction n generalizing s with
  | zero => exact .refl s
  | succ n ih => exact (sharedMoves_tick s).trans (ih _)

/-! ## Owners (R171, R172) -/

/-- The owner of a request leaves the part by moves of shared operations and gives a response: what every request but an accepted FETCH
comes to. -/
def Answers (s : State) (x : State × Reply) : Prop :=
  SharedMoves s x.1 ∧ ∃ status words, x.2 = .answer status words

theorem answers_refused (status : Status) (s : State) : Answers s (refusedWith status s) :=
  ⟨.refl s, status, [], rfl⟩

theorem answers_accepted {s u : State} (m : SharedMoves s u) : Answers s (acceptedWith u) :=
  ⟨m, .ok, [], rfl⟩

theorem answers_runRead (i : Fin 4) (r : Request) (s : State) : Answers s (runRead i r s) := by
  unfold runRead
  split
  · exact answers_refused _ s
  · exact ⟨.refl s, .ok, _, rfl⟩

/-! ## WRITE -/

theorem sharedMoves_setCountTable (on : Bool) (base : MemAddr) (s : State) : SharedMoves s (setCountTable on base s) := by
  have tabled : SharedMoves s (s.withTable on base) := sharedMoves_of_eq ⟨rfl, rfl, rfl, rfl, rfl, rfl⟩
  unfold setCountTable
  dsimp only
  split
  · split
    · exact tabled
    · exact tabled.trans (sharedMoves_markAll _)
  · split
    · exact tabled.trans (SharedMove.one .unmarks)
    · exact tabled

theorem answers_writeControl (r : Request) (s : State) : Answers s (writeControl r s) := by
  have moded : SharedMoves s (writeMode r s) := SharedMove.one (.elsewhere rfl rfl rfl rfl rfl rfl)
  have counted : SharedMoves s (writeCountSettings r (writeMode r s)) := by
    rw [writeCountSettings_eq]
    exact moded.trans (sharedMoves_setCountTable _ _ _)
  unfold writeControl
  split
  · exact answers_refused _ s
  · exact answers_accepted (SharedMoves.built (counted.trans (sharedMoves_of_eq ⟨rfl, rfl, rfl, rfl, rfl, rfl⟩)))

/-- A WRITE to a table changes that table alone. -/
theorem answers_table {s u : State} (same : u.queue = s.queue ∧ u.mem = s.mem ∧ u.ctl = s.ctl ∧ u.link = s.link ∧
    u.notices.noticeSlot = s.notices.noticeSlot ∧ u.ep = s.ep) : Answers s (acceptedWith u) :=
  answers_accepted (sharedMoves_of_eq same)

theorem answers_writeMap (r : Request) (s : State) : Answers s (writeMap r s) := by
  unfold writeMap
  split
  · exact answers_refused _ s
  · split
    · exact answers_refused _ s
    · split
      · exact answers_refused _ s
      · exact answers_table (by simp)

theorem answers_writeWatches (r : Request) (s : State) : Answers s (writeWatches r s) := by
  unfold writeWatches
  split
  · exact answers_refused _ s
  · split
    · exact answers_refused _ s
    · exact answers_table (by simp)

theorem answers_writeSlots (r : Request) (s : State) : Answers s (writeSlots r s) := by
  unfold writeSlots
  split
  · exact answers_refused _ s
  · split
    · exact answers_refused _ s
    · exact answers_table (by simp)

theorem answers_writeNotice (r : Request) (s : State) : Answers s (writeNotice r s) := by
  unfold writeNotice
  split
  · exact answers_refused _ s
  · exact answers_accepted (SharedMoves.built (sharedMoves_of_eq ⟨rfl, rfl, rfl, rfl, rfl, rfl⟩))

/-- The timing set is written in UNINIT and HOLD alone (R128). -/
theorem answers_writeTiming (r : Request) (s : State) : Answers s (writeTiming r s) := by
  unfold writeTiming
  split
  · exact answers_accepted (.refl s)
  · split
    · exact answers_refused _ s
    · split
      · exact answers_refused _ s
      · rename_i rests
        refine answers_accepted (SharedMove.one (.times _ ?_))
        by_contra away
        exact rests (not_or.mp away)

theorem answers_runWrite (i : Fin 4) (r : Request) (s : State) : Answers s (runWrite i r s) := by
  unfold runWrite
  split
  · exact answers_refused _ s
  · unfold writeOwner
    split
    · exact answers_writeControl r s
    · exact answers_writeMap r s
    · exact answers_writeWatches r s
    · exact answers_writeSlots r s
    · exact answers_writeNotice r s
    · exact answers_writeTiming r s
    · exact answers_accepted (.refl s)

/-! ## Commands (R177) -/

theorem answers_armSlot (i : Fin 8) (s : State) : Answers s (armSlot i s) := by
  unfold armSlot
  split
  · exact answers_refused _ s
  · have withdrawn : SharedMoves s (withdrawHold s) := SharedMove.one .withdraws
    refine answers_accepted (withdrawn.trans ?_)
    unfold armTakes
    split
    · exact sharedMoves_armHalf i _ rfl
    · split
      · exact sharedMoves_armHalf i _ rfl
      · split
        · exact sharedMoves_armReclaim i _ rfl
        all_goals exact sharedMoves_toRest i .stalled _

theorem answers_disarmSlot (i : Fin 8) (s : State) : Answers s (disarmSlot i s) := by
  have rested := sharedMoves_toRest i .idle s
  unfold disarmSlot
  split
  · exact answers_refused _ s
  · exact answers_accepted (rested.trans (sharedMoves_emptyHalf i _ _))
  · exact answers_accepted (sharedMoves_truncate i _ s)
  all_goals exact answers_accepted rested

theorem answers_forceTrigger (i : Fin 8) (s : State) : Answers s (forceTrigger i s) :=
  ⟨sharedMoves_trigger i 32 0 s, _, _, rfl⟩

theorem answers_releaseHalf (i : Fin 8) (h : Half) (s : State) : Answers s (releaseHalf i h s) := by
  have removed := sharedMoves_removeIndex i h s
  unfold releaseHalf releaseFull
  split
  · split
    · exact answers_accepted (removed.trans (sharedMoves_takeHalf i h _))
    · exact answers_accepted (removed.trans (sharedMoves_emptyHalf i h _))
  · exact answers_refused _ s

theorem answers_enableWatch (w : Fin 32) (s : State) : Answers s (enableWatch w s) := by
  unfold enableWatch
  split
  · exact answers_refused _ s
  · split
    · exact answers_refused _ s
    · exact answers_accepted (sharedMoves_of_eq (by simp))

theorem answers_disableWatch (w : Fin 32) (s : State) : Answers s (disableWatch w s) :=
  answers_accepted (sharedMoves_of_eq (by simp))

theorem answers_setGate (isOpen : Bool) (s : State) : Answers s (setGate isOpen s) :=
  answers_accepted (sharedMoves_of_eq ⟨rfl, rfl, rfl, rfl, rfl, rfl⟩)

theorem answers_ackNotice (c : Fin 8) (mask : BitVec 32) (s : State) : Answers s (ackNotice c mask s) :=
  answers_accepted (SharedMoves.built (sharedMoves_of_eq ⟨rfl, rfl, rfl, rfl, rfl, rfl⟩))

theorem answers_clearFaultRecord (s : State) : Answers s (clearFaultRecord s) :=
  answers_accepted (SharedMove.one (.elsewhere rfl rfl rfl rfl rfl rfl))

theorem answers_memStart (s : State) : Answers s (memStart s) := by
  unfold memStart
  split
  · exact answers_accepted (SharedMove.one (.starts ‹_›))
  · exact answers_refused _ s

theorem answers_memHold (s : State) : Answers s (memHold s) := by
  unfold memHold
  split
  · split
    · exact answers_refused _ s
    · exact answers_accepted (SharedMove.one (.holds ‹_›))
  · exact answers_accepted (.refl s)
  · exact answers_accepted (.refl s)
  all_goals exact answers_refused _ s

theorem answers_resetCapture (s : State) : Answers s (resetCapture s) := by
  have cleared : SharedMoves s (clearCapture s) := SharedMove.one .clears
  have marked : SharedMoves s (clearAndMark s) := by
    unfold clearAndMark
    split
    · exact cleared.trans (sharedMoves_markAll _)
    · exact cleared
  exact answers_accepted marked.built

theorem answers_realign (p : Port) (s : State) : Answers s (realign p s) := by
  have realigned : SharedMoves s (s.setPort p (s.port p).realigned) := sharedMoves_of_eq (by simp)
  unfold realign
  dsimp only
  refine answers_accepted ?_
  split
  · exact realigned.raised
  · exact realigned

/-! ## Every command -/

/-- A response goes into the context of a WAITING request, and the D transmit arbiter may begin a frame. -/
theorem commandMoves_settle {s : State} {i : Fin 4} {q : Taken} (status : Status) (words : List MgmtWord)
    (waiting : s.context i = .waiting q) : CommandMoves s (settle i q (.answer status words) s) :=
  (CommandMove.one (.answers i q status words waiting)).trans (SharedMove.one .choosesD).command

theorem commandMoves_execute {s : State} (form : Request → Bool) (run : Execution)
    (owner : ∀ i q, s.context i = .waiting q → (∀ j, (s.context j).isReading = false) →
      CommandMoves s (settle i q (run i q.request s).2 (run i q.request s).1)) : CommandMoves s (execute form run s) := by
  rcases execute_cases form run s with same | ⟨i, q, next, -, executes⟩
  · rw [same]
    exact .refl s
  · obtain ⟨waiting, alone⟩ := nextExecution_waiting next
    rcases executes with ⟨status, e⟩ | ⟨-, e⟩
    · rw [e]
      exact commandMoves_settle status [] waiting
    · rw [e]
      exact owner i q waiting alone

/-- A row whose owner gives a response. -/
theorem commandMoves_executeAnswer {s : State} (form : Request → Bool) (run : Execution)
    (owner : ∀ i r, Answers s (run i r s)) : CommandMoves s (execute form run s) := by
  refine commandMoves_execute form run fun i q waiting _ => ?_
  obtain ⟨moves, status, words, reply⟩ := owner i q.request
  obtain ⟨contexts, -⟩ := sharedMoves_keep_contexts moves
  rw [reply]
  exact moves.command.trans (commandMoves_settle status words ((context_of_contexts contexts i).trans waiting))

/-- A COMMAND row with an argument. -/
theorem commandMoves_executeArg {α : Type} {s : State} (form : Request → Bool) (take : MgmtWord → Option α)
    (run : α → State → State × Reply) (owner : ∀ a, Answers s (run a s)) :
    CommandMoves s (execute form (withArg take run) s) := by
  refine commandMoves_executeAnswer form _ fun i r => ?_
  unfold withArg
  split
  · exact owner _
  · exact answers_refused _ s

/-- FETCH answers a refusal, or places its read and leaves its context READING. -/
theorem commandMoves_fetch (form : Request → Bool) (s : State) : CommandMoves s (execute form runFetch s) := by
  refine commandMoves_execute form runFetch fun i q waiting alone => ?_
  unfold runFetch
  split
  · exact commandMoves_settle _ [] waiting
  · exact CommandMove.one (.places i q waiting alone)

theorem commandMoves_exec {s t : State} (c : Instr) (h : exec c s = .next t) : CommandMoves s t := by
  cases c with
  | powerOnReset straps =>
    cases h
    exact CommandMove.one (.resets straps)
  | tapValue p symbols =>
    cases h
    split
    · exact foldl_inv (CommandMoves s) _ (fun u y m => m.trans (commandMoves_receiveSymbol p y u)) symbols s (.refl s)
    · exact .refl s
  | lockedSymbol | receiverUp | tapProvedFalse | oversizeFrame | lossOfAlignment | frameCompletedD =>
    cases h
    split
    · exact commandMoves_receiveSymbol _ _ s
    · exact .refl s
  | symbolReceived p symbol =>
    cases h
    exact commandMoves_receiveSymbol p symbol s
  | frameCompletedU =>
    cases h
    split
    · exact (commandMoves_receiveSymbol .u .endFrame s).trans (sharedMoves_finishHanding _).command
    · exact (sharedMoves_takeTurn s).command
  | pauseEnd | holdoffExpiry =>
    cases h
    split
    · exact (sharedMoves_ticks _ s).command
    · exact .refl s
  | read =>
    cases h
    exact commandMoves_executeAnswer _ _ fun i r => answers_runRead i r s
  | fetch =>
    cases h
    exact commandMoves_fetch _ s
  | write | writeChannelMap | writeWatch | writeSlot | writeTimingSet | writeCountTable | writeEnableSet | writeOrderList
  | writeExpressClass | writeCheckMode =>
    cases h
    exact commandMoves_executeAnswer _ _ fun i r => answers_runWrite i r s
  | armSlot =>
    cases h
    exact commandMoves_executeArg _ _ _ fun i => answers_armSlot i s
  | disarmSlot =>
    cases h
    exact commandMoves_executeArg _ _ _ fun i => answers_disarmSlot i s
  | forceTrigger =>
    cases h
    exact commandMoves_executeArg _ _ _ fun i => answers_forceTrigger i s
  | releaseHalf =>
    cases h
    exact commandMoves_executeArg _ _ _ fun a => answers_releaseHalf a.1 a.2 s
  | enableWatch =>
    cases h
    exact commandMoves_executeArg _ _ _ fun w => answers_enableWatch w s
  | disableWatch =>
    cases h
    exact commandMoves_executeArg _ _ _ fun w => answers_disableWatch w s
  | gate =>
    cases h
    exact commandMoves_executeArg _ _ _ fun isOpen => answers_setGate isOpen s
  | ackNotice =>
    cases h
    exact commandMoves_executeArg _ _ _ fun a => answers_ackNotice a.1 a.2 s
  | realign =>
    cases h
    exact commandMoves_executeArg _ _ _ fun p => answers_realign p s
  | clearFault =>
    cases h
    exact commandMoves_executeAnswer _ _ fun _ _ => answers_clearFaultRecord s
  | memStart =>
    cases h
    exact commandMoves_executeAnswer _ _ fun _ _ => answers_memStart s
  | memHold =>
    cases h
    exact commandMoves_executeAnswer _ _ fun _ _ => answers_memHold s
  | resetCapture =>
    cases h
    exact commandMoves_executeAnswer _ _ fun _ _ => answers_resetCapture s
  | burstEnd =>
    cases h
    split
    · exact CommandMove.one (.endsBurst _ ‹_›)
    · exact .refl s
  | refreshDue =>
    cases h
    split
    · exact (SharedMove.one (.fallsDue ‹_›)).command
    · exact .refl s
  | refreshEnd =>
    cases h
    split
    · exact CommandMove.one (.endsClosed (.inl ‹_›))
    · exact .refl s
  | fetchReadEnd =>
    cases h
    split
    · exact CommandMove.one (.endsRead _ _ ‹_› ‹_›)
    · exact .refl s
  | countTableWriteEnd =>
    cases h
    split
    · exact CommandMove.one (.endsCount _ _ _ ‹_›)
    · exact .refl s
  | initSequenceEnd =>
    cases h
    split
    · exact CommandMove.one (.endsInit ‹_›)
    · exact .refl s
  | closingOperationEnd =>
    cases h
    split
    · rename_i op
      split
      · rename_i rests
        exact CommandMove.one (.entersHold op rests.1 rests.2)
      · exact CommandMove.one (.endsClosed (.inr op))
    · exact .refl s
  | exitSequenceEnd =>
    cases h
    split
    · exact CommandMove.one (.endsExit _ ‹_›)
    · exact .refl s
  | dFrameSent =>
    cases h
    split
    · rename_i x sending
      have sent : CommandMoves s (clearDOut (freeHolder x.holder s)) := CommandMove.one (.sendsD x sending)
      exact sent.trans ((SharedMove.one .builds).trans (SharedMove.one .choosesD)).command
    · exact .refl s
  | uFrameSent =>
    cases h
    split
    · rename_i f sending
      exact (CommandMove.one (.sendsU f sending)).trans (SharedMove.one .choosesU).command
    · exact .refl s

/-- A step is a chain of moves: those of the command at the front of the queue, or those of the microsecond counter. -/
theorem commandMoves_step {s t : State} (h : step s = .next t) : CommandMoves s t := by
  cases pending : s.pending with
  | nil =>
    rw [step_of_empty pending] at h
    cases h
    exact (sharedMoves_tick s).command
  | cons c rest =>
    have runs : step s = exec c (s.withQueue rest) := by simp [step, pending]
    have queued : SharedMoves s (s.withQueue rest) := sharedMoves_of_eq ⟨rfl, rfl, rfl, rfl, rfl, rfl⟩
    exact queued.command.trans (commandMoves_exec c (runs ▸ h))

end Sys2Proof.Machine
end

section
/-! SUPPORT. StepKeepsMemoryStates: what the arbiter's choice leaves on the port, and so memory state, port, hold request, timer and timing
sets through every move (R101, R107, R110, R117, R118, R121 to R129). -/

namespace Sys2Proof.Machine

/-! ## What waits, and what the arbiter makes of it (R107 to R109) -/

theorem workWaits_iff (s : State) :
    s.workWaits = false ↔
      s.ctl.refreshDue = false ∧ s.queue = [] ∧ s.ctl.reads = [] ∧ ∀ w : Fin 16, s.ctl.dirty[w] = false := by
  rw [← lowestDirty_none]
  simp [State.workWaits, and_assoc]

/-- An operation that R108 or R122 begins, a burst in its shape (R101). -/
def PortOp.chosen (op : PortOp) : Prop :=
  op ≠ .initSequence ∧ (∀ m, op ≠ .exitSequence m) ∧ ∀ entries, op = .burst entries → burstShape entries

/-- A choice at a free port begins an operation, or finds a READY memory for which nothing waits. -/
theorem beginWork_begins (s : State) :
    (∃ op, (beginWork s).ctl.op = some op ∧ op.chosen) ∨
      (beginWork s = s ∧ s.ctl.state ≠ .entering ∧ s.workWaits = false) := by
  have plain : ∀ op : PortOp, op ≠ .initSequence → (∀ m, op ≠ .exitSequence m) → (∀ entries, op ≠ .burst entries) → op.chosen :=
    fun op init exits burst => ⟨init, exits, fun entries e => absurd e (burst entries)⟩
  have burst : s.queue ≠ [] → ∃ op, (beginBurst s).ctl.op = some op ∧ op.chosen :=
    fun waits => ⟨_, rfl, nofun, nofun, fun entries e => by cases e; exact takeBurst_shape waits⟩
  cases due : s.ctl.refreshDue with
  | true =>
    rw [beginWork_of_due due]
    exact .inl ⟨_, rfl, plain _ nofun nofun nofun⟩
  | false =>
    rcases Nat.lt_or_ge s.queue.length 64 with short | full
    · by_cases noReads : s.ctl.reads = []
      · cases mark : s.ctl.lowestDirty with
        | some w =>
          rw [beginWork_of_mark due short noReads mark]
          exact .inl ⟨_, rfl, plain _ nofun nofun nofun⟩
        | none =>
          rw [beginWork_of_queue due short noReads mark]
          by_cases empty : s.queue = []
          · rw [if_neg (not_not.mpr empty)]
            by_cases entering : s.ctl.state = .entering
            · rw [if_pos entering]
              exact .inl ⟨_, rfl, plain _ nofun nofun nofun⟩
            · rw [if_neg entering]
              exact .inr ⟨rfl, entering, (workWaits_iff s).mpr ⟨due, empty, noReads, (lowestDirty_none _).mp mark⟩⟩
          · rw [if_pos empty]
            exact .inl (burst empty)
      · rw [beginWork_of_reads due short noReads]
        exact .inl ⟨_, rfl, plain _ nofun nofun nofun⟩
    · rw [beginWork_of_full due full]
      exact .inl (burst (List.ne_nil_of_length_pos (by omega)))

/-! ## Agreement, state by state (R117) -/

/-- The invariant reads the memory controller alone, and of it neither reads, marks nor the due refresh. -/
theorem memoryAgrees_congr {s t : State} (a : s.memoryAgrees)
    (same : t.ctl.state = s.ctl.state ∧ t.ctl.holdRequest = s.ctl.holdRequest ∧ t.ctl.written = s.ctl.written ∧
      t.ctl.effect = s.ctl.effect ∧ t.ctl.op = s.ctl.op ∧ t.ctl.banks = s.ctl.banks ∧
      t.ctl.timer.running = s.ctl.timer.running) : t.memoryAgrees := by
  obtain ⟨state, request, written, effect, op, banks, timer⟩ := same
  simpa only [State.memoryAgrees, MemCtl.portAgrees, MemCtl.requestAgrees, MemCtl.stateAgrees, state, request, written, effect, op,
    banks, timer] using a

theorem memoryAgrees_of_ctl {s t : State} (a : s.memoryAgrees) (ctl : t.ctl = s.ctl) : t.memoryAgrees :=
  memoryAgrees_congr a (by simp [ctl])

/-- Only INIT has the initialisation sequence on the port. -/
theorem state_of_initSequence {s : State} (a : s.memoryAgrees) (op : s.ctl.op = some .initSequence) : s.ctl.state = .init := by
  obtain ⟨port, -⟩ := a
  cases state : s.ctl.state <;> simp [MemCtl.portAgrees, state, op] at port ⊢

/-- Only EXITING has the exit sequence on the port. -/
theorem state_of_exitSequence {s : State} {m : Bool} (a : s.memoryAgrees) (op : s.ctl.op = some (.exitSequence m)) :
    s.ctl.state = .exiting := by
  obtain ⟨port, -⟩ := a
  cases state : s.ctl.state <;> simp [MemCtl.portAgrees, state, op] at port ⊢

/-- Any other operation is on the port of a memory that serves. -/
theorem serving_of_op {s : State} {op : PortOp} (a : s.memoryAgrees) (on : s.ctl.op = some op) (init : op ≠ .initSequence)
    (exits : ∀ m, op ≠ .exitSequence m) : s.ctl.state.serving = true := by
  obtain ⟨port, -⟩ := a
  cases state : s.ctl.state <;> simp [MemCtl.portAgrees, MemState.serving, state, on, init, exits] at port ⊢

/-- A serving memory with chosen work on the port. -/
theorem memoryAgrees_of_chosen {s : State} {op : PortOp} (serving : s.ctl.state.serving = true) (on : s.ctl.op = some op)
    (chosen : op.chosen) (request : s.ctl.requestAgrees) (state : s.ctl.stateAgrees) : s.memoryAgrees := by
  obtain ⟨init, exits, burst⟩ := chosen
  refine ⟨?_, request, state, fun entries e => burst entries (Option.some.inj (on.symm.trans e))⟩
  rcases (serving_iff _).mp serving with ready | entering
  · simp [MemCtl.portAgrees, ready, on, init, exits]
  · simp [MemCtl.portAgrees, entering, on, init, exits]

/-- A choice at the free port of a serving memory brings port and state in agreement. -/
theorem chooseMem_agrees_of_free {s : State} (serving : s.ctl.state.serving = true) (free : s.ctl.op = none)
    (request : s.ctl.requestAgrees) (state : s.ctl.stateAgrees) : (chooseMem s).memoryAgrees := by
  rw [chooseMem_of_free serving free]
  rcases beginWork_begins s with ⟨op, on, chosen⟩ | ⟨same, notEntering, -⟩
  · refine memoryAgrees_of_chosen ?_ on chosen ?_ ?_
    · simpa using serving
    · simpa [MemCtl.requestAgrees] using request
    · simpa [MemCtl.stateAgrees] using state
  · have ready : s.ctl.state = .ready := ((serving_iff _).mp serving).resolve_right notEntering
    rw [same]
    exact ⟨by simp [MemCtl.portAgrees, ready, free], request, state, by simp [free]⟩

theorem chooseMem_keeps_memoryAgrees {s : State} (a : s.memoryAgrees) : (chooseMem s).memoryAgrees := by
  by_cases choice : s.ctl.state.serving = true ∧ s.ctl.op = none
  · obtain ⟨-, request, state, -⟩ := a
    exact chooseMem_agrees_of_free choice.1 choice.2 request state
  · rwa [show chooseMem s = s from if_neg choice]

/-- The exit from hold puts its sequence on the port, and the written timing set takes effect (R126, R129). -/
theorem beginExit_agrees {s : State} (a : s.memoryAgrees) (hold : s.ctl.state = .hold) : (beginExit s).memoryAgrees := by
  obtain ⟨-, -, ⟨timer, -⟩, -⟩ := a
  have stopped : s.ctl.timer.running ≠ true := fun runs => by simpa [hold, MemState.serving] using timer.mp runs
  exact ⟨⟨_, rfl⟩, trivial, ⟨iff_of_false stopped nofun, nofun, fun _ _ => rfl⟩, nofun⟩

theorem workArrives_keeps_memoryAgrees {s : State} (a : s.memoryAgrees) : (workArrives s).memoryAgrees := by
  by_cases hold : s.ctl.state = .hold
  · rw [workArrives_of_hold hold]
    exact beginExit_agrees a hold
  · rw [workArrives_of_notHold hold]
    exact chooseMem_keeps_memoryAgrees a

/-- The port of a serving memory is freed and the arbiter chooses. -/
theorem chooseMem_agrees_of_freed {s t : State} (a : s.memoryAgrees) (serving : s.ctl.state.serving = true) (free : t.ctl.op = none)
    (same : t.ctl.state = s.ctl.state ∧ t.ctl.holdRequest = s.ctl.holdRequest ∧ t.ctl.written = s.ctl.written ∧
      t.ctl.effect = s.ctl.effect ∧ t.ctl.timer = s.ctl.timer) : (chooseMem t).memoryAgrees := by
  obtain ⟨-, request, ⟨timer, -, sets⟩, -⟩ := a
  obtain ⟨state, hold, written, effect, clock⟩ := same
  refine chooseMem_agrees_of_free (by rw [state, serving]) free ?_ ⟨?_, fun rests => ?_, ?_⟩
  · simpa only [MemCtl.requestAgrees, state, hold] using request
  · rw [clock, state, timer]
  · rw [← state, rests] at serving
    cases serving
  · rwa [state, written, effect]

/-! ## Shared operations -/

/-- ENTERING goes back to READY with its operation still on the port (R125). -/
theorem withdrawHold_keeps_memoryAgrees {s : State} (a : s.memoryAgrees) : (withdrawHold s).memoryAgrees := by
  obtain ⟨port, request, ⟨timer, banks, sets⟩, burst⟩ := a
  by_cases entering : s.ctl.state = .entering
  · simp only [MemCtl.portAgrees, entering] at port
    obtain ⟨-, init, exits⟩ := port
    have state : (withdrawHold s).ctl.state = .ready := if_pos entering
    refine ⟨?_, ?_, ⟨?_, ?_, ?_⟩, burst⟩
    · rw [MemCtl.portAgrees, state]
      exact ⟨init, exits⟩
    · rw [MemCtl.requestAgrees, state]
      rfl
    · rw [state]
      exact iff_of_true (timer.mpr (by rw [entering]; rfl)) rfl
    · rw [state]
      nofun
    · exact fun _ _ => sets (by rw [entering]; nofun) (by rw [entering]; nofun)
  · rw [withdrawHold_of_settled entering]
    refine ⟨port, ?_, ⟨timer, banks, sets⟩, burst⟩
    cases state : s.ctl.state <;> simp_all [MemCtl.requestAgrees]

/-- MEM-START loads the written timing set, which stays the one in effect (R119, R129). -/
theorem starts_agrees {s : State} (a : s.memoryAgrees) (uninit : s.ctl.state = .uninit) :
    State.memoryAgrees { s with ctl := { s.ctl with state := .init, effect := s.ctl.written, op := some .initSequence } } := by
  obtain ⟨-, request, ⟨timer, -⟩, -⟩ := a
  have stopped : s.ctl.timer.running ≠ true := fun runs => by simpa [uninit, MemState.serving] using timer.mp runs
  refine ⟨rfl, ?_, ⟨iff_of_false stopped nofun, nofun, fun _ _ => rfl⟩, nofun⟩
  simpa [MemCtl.requestAgrees, uninit] using request

/-- MEM-HOLD leaves a READY memory ENTERING, with the operation it had or one that the arbiter chooses (R121, R122). -/
theorem holds_agrees {s : State} (a : s.memoryAgrees) (ready : s.ctl.state = .ready) :
    (chooseMem { s with ctl := { s.ctl with holdRequest := true, state := .entering } }).memoryAgrees := by
  obtain ⟨port, -, ⟨timer, -, sets⟩, burst⟩ := a
  simp only [MemCtl.portAgrees, ready] at port
  obtain ⟨init, exits⟩ := port
  have state : MemCtl.stateAgrees { s.ctl with holdRequest := true, state := .entering } :=
    ⟨iff_of_true (timer.mpr (by rw [ready]; rfl)) rfl, nofun, fun _ _ => sets (by rw [ready]; nofun) (by rw [ready]; nofun)⟩
  by_cases free : s.ctl.op = none
  · exact chooseMem_agrees_of_free rfl free rfl state
  · rw [chooseMem_of_busy (s := { s with ctl := { s.ctl with holdRequest := true, state := .entering } }) free]
    exact ⟨⟨free, init, exits⟩, rfl, state, burst⟩

/-- In UNINIT and HOLD the written timing set may differ from the one in effect (R128, R129). -/
theorem times_agrees {s : State} (a : s.memoryAgrees) (set : TimingSet) (rests : s.ctl.state = .uninit ∨ s.ctl.state = .hold) :
    State.memoryAgrees { s with ctl := { s.ctl with written := set } } := by
  obtain ⟨port, request, ⟨timer, banks, -⟩, burst⟩ := a
  exact ⟨port, request, ⟨timer, banks, fun uninit hold => absurd rests (not_or.mpr ⟨uninit, hold⟩)⟩, burst⟩

theorem sharedMove_keeps_memoryAgrees {s t : State} (m : SharedMove s t) (a : s.memoryAgrees) : t.memoryAgrees := by
  cases m with
  | elsewhere _ _ ctl => exact memoryAgrees_of_ctl a ctl
  | builds | choosesD | choosesU | clears => exact memoryAgrees_of_ctl a (by simp)
  | forwardsD | forwardsU | refuses => exact memoryAgrees_of_ctl a rfl
  | queues => exact workArrives_keeps_memoryAgrees (memoryAgrees_of_ctl a rfl)
  | marks => exact workArrives_keeps_memoryAgrees (memoryAgrees_congr a ⟨rfl, rfl, rfl, rfl, rfl, rfl, rfl⟩)
  | marksQuietly => exact chooseMem_keeps_memoryAgrees (memoryAgrees_congr a ⟨rfl, rfl, rfl, rfl, rfl, rfl, rfl⟩)
  | unmarks => exact memoryAgrees_congr a ⟨rfl, rfl, rfl, rfl, rfl, rfl, rfl⟩
  | withdraws => exact withdrawHold_keeps_memoryAgrees a
  | starts uninit => exact starts_agrees a uninit
  | holds ready => exact holds_agrees a ready
  | times set rests => exact times_agrees a set rests
  | fallsDue runs => exact chooseMem_keeps_memoryAgrees (memoryAgrees_congr a ⟨rfl, rfl, rfl, rfl, rfl, rfl, runs.symm⟩)

/-! ## Ends of operations -/

/-- A burst at its end is on the port of a serving memory, and until the port is free only banks and marks change. -/
theorem endBurst_of_agrees {s : State} {entries : List QueueEntry} (a : s.memoryAgrees) (op : s.ctl.op = some (.burst entries)) :
    s.ctl.state.serving = true ∧ ∃ u : State, endBurst entries s = freePort u ∧
      u.ctl = { s.ctl with banks := u.ctl.banks, dirty := u.ctl.dirty } := by
  have serving := serving_of_op a op nofun nofun
  obtain ⟨-, -, -, shape⟩ := a
  cases entries with
  | nil => exact absurd (shape _ op).1 (by simp)
  | cons e rest =>
    have awake : s.ctl.state ≠ .hold := fun hold => by
      rw [hold] at serving
      cases serving
    obtain ⟨-, ctl⟩ := burstEnded_waits (e :: rest) e.slot e.half (by simp [op]) awake
    exact ⟨serving, burstEnded (e :: rest) e.slot e.half s, rfl, by rw [ctl]; rfl⟩

/-- The memory enters HOLD with every bank CLOSED and the timer stopped (R123). -/
theorem enterHold_agrees (s : State) : (enterHold (endClosed s)).memoryAgrees :=
  ⟨rfl, trivial, ⟨iff_of_false nofun nofun, fun _ => rfl, fun _ awake => absurd rfl awake⟩, nofun⟩

/-- The memory enters READY, or ENTERING with the hold request set, from INIT or EXITING: the timer runs (R110, R120, R127). -/
theorem enterReady_agrees {s t : State} {state : MemState} (a : s.memoryAgrees) (serves : state.serving = true)
    (began : s.ctl.state = .init ∨ s.ctl.state = .exiting)
    (request : MemCtl.requestAgrees { s.ctl with state := state }) (ctl : t.ctl = (enterReady state s).ctl) :
    (chooseMem t).memoryAgrees := by
  obtain ⟨-, -, ⟨-, -, sets⟩, -⟩ := a
  have sets : s.ctl.written = s.ctl.effect := by
    rcases began with e | e <;> exact sets (by rw [e]; nofun) (by rw [e]; nofun)
  refine chooseMem_agrees_of_free (by rw [ctl]; exact serves) (by rw [ctl]; rfl) (by rw [ctl]; exact request) ?_
  rw [ctl]
  exact ⟨iff_of_true rfl serves, fun hold => (by cases hold; cases serves), fun _ _ => sets⟩

theorem commandMove_keeps_memoryAgrees {s t : State} (m : CommandMove s t) (a : s.memoryAgrees) : t.memoryAgrees := by
  cases m with
  | shares move => exact sharedMove_keeps_memoryAgrees move a
  | accepts | answers | sendsD | sendsU => exact memoryAgrees_of_ctl a (by simp)
  | places => exact workArrives_keeps_memoryAgrees (memoryAgrees_congr a ⟨rfl, rfl, rfl, rfl, rfl, rfl, rfl⟩)
  | endsBurst entries op =>
    obtain ⟨serving, u, e, ctl⟩ := endBurst_of_agrees a op
    rw [e]
    refine chooseMem_agrees_of_freed a serving rfl ?_
    dsimp only
    rw [ctl]
    exact ⟨rfl, rfl, rfl, rfl, rfl⟩
  | endsRead r rest op =>
    exact chooseMem_agrees_of_freed a (serving_of_op a op nofun nofun) rfl (by simp [readDone])
  | endsCount w at_ v op =>
    exact chooseMem_agrees_of_freed a (serving_of_op a op nofun nofun) rfl ⟨rfl, rfl, rfl, rfl, rfl⟩
  | endsClosed op =>
    have serving : s.ctl.state.serving = true := by
      rcases op with op | op <;> exact serving_of_op a op nofun nofun
    exact chooseMem_agrees_of_freed a serving rfl ⟨rfl, rfl, rfl, rfl, rfl⟩
  | entersHold => exact enterHold_agrees s
  | endsInit op =>
    have init := state_of_initSequence a op
    obtain ⟨-, request, -⟩ := id a
    refine enterReady_agrees a (state := .ready) rfl (.inl init) ?_ (by simp)
    simpa [MemCtl.requestAgrees, init] using request
  | endsExit m op =>
    have exiting := state_of_exitSequence a op
    cases request : s.ctl.holdRequest with
    | true => exact enterReady_agrees a (state := .entering) rfl (.inr exiting) request rfl
    | false => exact enterReady_agrees a (state := .ready) rfl (.inr exiting) request rfl
  | resets straps => exact powerOn_memoryAgrees straps s.free s.pending

end Sys2Proof.Machine

open Sys2Proof Sys2Proof.Machine

/-- Settles O10: a step is a chain of moves, and every move keeps the memory controller's parts in agreement. -/
theorem stepKeepsMemoryStates : Obligations.StepKeepsMemoryStates := by
  intro s t a h
  exact (commandMoves_step h).keep (fun _ _ => commandMove_keeps_memoryAgrees) a
end

section
/-! SUPPORT. StepLeavesNoWorkAtAFreePort: a choice of the arbiter leaves nothing waiting at the free port of a READY memory, and every
arrival wakes a memory in HOLD but the marks of an ARM-SLOT (R107, R109, R123 to R125, log entry 27). -/

namespace Sys2Proof.Machine

/-- Outside READY and HOLD work may wait. -/
theorem portBusy_of_state {s : State} (notReady : s.ctl.state ≠ .ready) (awake : s.ctl.state ≠ .hold) : s.portBusy :=
  ⟨fun ready => absurd ready notReady, fun hold => absurd hold awake, fun hold => absurd hold awake⟩

/-- A decision point outside HOLD leaves no work at a free port, whatever stood there before. -/
theorem chooseMem_portBusy {s : State} (awake : s.ctl.state ≠ .hold) : (chooseMem s).portBusy := by
  obtain ⟨state, -⟩ := chooseMem_ctl s
  refine ⟨fun ready free => ?_, fun hold => absurd (state.symm.trans hold) awake, fun hold => absurd (state.symm.trans hold) awake⟩
  by_cases before : s.ctl.op = none
  · have serving : s.ctl.state.serving = true := (serving_iff _).mpr (.inl (state.symm.trans ready))
    rw [chooseMem_of_free serving before] at free ⊢
    rcases beginWork_begins s with ⟨op, on, -⟩ | ⟨same, -, idle⟩
    · exact absurd (on.symm.trans free) nofun
    · rwa [same]
  · rw [chooseMem_of_busy before] at free
    exact absurd free before

/-- An arrival of work leaves none at a free port: it wakes a memory in HOLD, and is a decision point otherwise (R107, R124). -/
theorem workArrives_portBusy (s : State) : (workArrives s).portBusy := by
  by_cases hold : s.ctl.state = .hold
  · rw [workArrives_of_hold hold]
    exact portBusy_of_state nofun nofun
  · rw [workArrives_of_notHold hold]
    exact chooseMem_portBusy hold

/-- An operation after which no more waits than before, with the same memory state, port and hold request. -/
theorem portBusy_of_fewer {s t : State} (b : s.portBusy)
    (same : t.ctl.state = s.ctl.state ∧ t.ctl.op = s.ctl.op ∧ t.ctl.holdRequest = s.ctl.holdRequest ∧
      t.ctl.refreshDue = s.ctl.refreshDue ∧ t.ctl.reads = s.ctl.reads)
    (queue : s.queue = [] → t.queue = []) (marks : (∀ w : Fin 16, s.ctl.dirty[w] = false) → ∀ w : Fin 16, t.ctl.dirty[w] = false) :
    t.portBusy := by
  obtain ⟨state, op, request, due, reads⟩ := same
  obtain ⟨ready, hold, requested⟩ := b
  have idle : s.workWaits = false → t.workWaits = false := by
    rw [workWaits_iff, workWaits_iff, due, reads]
    exact fun ⟨noRefresh, empty, noReads, unmarked⟩ => ⟨noRefresh, queue empty, noReads, marks unmarked⟩
  rw [State.portBusy, state, op, request, due, reads]
  refine ⟨fun r free => idle (ready r free), fun h => ?_, fun h asked => idle (requested h asked)⟩
  obtain ⟨noRefresh, empty, noReads⟩ := hold h
  exact ⟨noRefresh, queue empty, noReads⟩

theorem portBusy_of_ctl {s t : State} (b : s.portBusy) (ctl : t.ctl = s.ctl) (queue : t.queue = s.queue) : t.portBusy :=
  portBusy_of_fewer b (by simp [ctl]) (fun empty => queue.trans empty) fun unmarked => by rwa [ctl]

/-- The hold request withdrawn, marks may wait in HOLD; ENTERING goes back to READY with its operation on the port (R125). -/
theorem withdrawHold_keeps_portBusy {s : State} (a : s.memoryAgrees) (b : s.portBusy) : (withdrawHold s).portBusy := by
  by_cases entering : s.ctl.state = .entering
  · obtain ⟨port, -⟩ := a
    simp only [MemCtl.portAgrees, entering] at port
    have state : (withdrawHold s).ctl.state = .ready := if_pos entering
    exact ⟨fun _ free => absurd free port.1, fun hold => by simp [state] at hold, fun hold => by simp [state] at hold⟩
  · obtain ⟨ready, hold, -⟩ := b
    rw [withdrawHold_of_settled entering]
    exact ⟨ready, hold, fun _ asked => absurd asked nofun⟩

/-- In HOLD the mark of an ARM-SLOT waits, the hold request being withdrawn (log entry 27). -/
theorem marksQuietly_portBusy {s : State} (b : s.portBusy) (w : Fin 16) (withdrawn : s.ctl.holdRequest = false) :
    (chooseMem (setMark w s)).portBusy := by
  by_cases hold : s.ctl.state = .hold
  · have resting : (setMark w s).ctl.state.serving = false := by
      change s.ctl.state.serving = false
      rw [hold]
      rfl
    rw [chooseMem_of_notServing resting]
    obtain ⟨-, waits, -⟩ := b
    exact ⟨fun ready => absurd (hold.symm.trans ready) nofun, waits, fun _ asked => absurd (withdrawn.symm.trans asked) nofun⟩
  · exact chooseMem_portBusy hold

theorem sharedMove_keeps_portBusy {s t : State} (m : SharedMove s t) (a : s.memoryAgrees) (b : s.portBusy) : t.portBusy := by
  cases m with
  | elsewhere queue _ ctl => exact portBusy_of_ctl b ctl queue
  | builds | choosesD | choosesU => exact portBusy_of_ctl b (by simp) (by simp)
  | forwardsD | forwardsU | refuses => exact portBusy_of_ctl b rfl rfl
  | queues | marks => exact workArrives_portBusy _
  | marksQuietly w withdrawn => exact marksQuietly_portBusy b w withdrawn
  | unmarks => exact portBusy_of_fewer b ⟨rfl, rfl, rfl, rfl, rfl⟩ id fun _ => by simp
  | withdraws => exact withdrawHold_keeps_portBusy a b
  | starts => exact portBusy_of_state nofun nofun
  | holds => exact chooseMem_portBusy nofun
  | times => exact portBusy_of_fewer b ⟨rfl, rfl, rfl, rfl, rfl⟩ id id
  | fallsDue runs =>
    obtain ⟨-, -, ⟨timer, -⟩, -⟩ := a
    refine chooseMem_portBusy fun hold => ?_
    have serving := timer.mp runs
    rw [show s.ctl.state = .hold from hold] at serving
    cases serving
  | clears => exact portBusy_of_fewer b (by simp) (fun _ => rfl) (by simp)

/-- The port of a serving memory is freed and the arbiter chooses. -/
theorem chooseMem_portBusy_of_serving {s t : State} (serving : s.ctl.state.serving = true) (state : t.ctl.state = s.ctl.state) :
    (chooseMem t).portBusy := by
  refine chooseMem_portBusy fun hold => ?_
  rw [← state, hold] at serving
  cases serving

theorem commandMove_keeps_portBusy {s t : State} (m : CommandMove s t) (a : s.memoryAgrees) (b : s.portBusy) : t.portBusy := by
  cases m with
  | shares move => exact sharedMove_keeps_portBusy move a b
  | accepts | answers | sendsD | sendsU => exact portBusy_of_ctl b (by simp) (by simp)
  | places => exact workArrives_portBusy _
  | endsBurst entries op =>
    obtain ⟨serving, u, e, ctl⟩ := endBurst_of_agrees a op
    rw [e]
    exact chooseMem_portBusy_of_serving serving (congrArg MemCtl.state ctl : u.ctl.state = _)
  | endsRead r rest op => exact chooseMem_portBusy_of_serving (serving_of_op a op nofun nofun) (by simp [readDone])
  | endsCount w at_ v op => exact chooseMem_portBusy_of_serving (serving_of_op a op nofun nofun) rfl
  | endsClosed op =>
    rcases op with op | op <;> exact chooseMem_portBusy_of_serving (serving_of_op a op nofun nofun) rfl
  | entersHold _ _ idle =>
    obtain ⟨noRefresh, empty, noReads, -⟩ := (workWaits_iff s).mp idle
    exact ⟨nofun, fun _ => ⟨noRefresh, empty, noReads⟩, fun _ _ => idle⟩
  | endsInit => exact chooseMem_portBusy_of_serving (s := enterReady .ready s) rfl (by simp)
  | endsExit =>
    cases s.ctl.holdRequest with
    | true => exact chooseMem_portBusy nofun
    | false => exact chooseMem_portBusy nofun
  | resets straps => exact powerOn_portBusy straps s.free s.pending

end Sys2Proof.Machine

open Sys2Proof Sys2Proof.Machine

/-- Settles O11: every move leaves no work at a free port of a memory whose parts agree, and keeps them in agreement. -/
theorem stepLeavesNoWorkAtAFreePort : Obligations.StepLeavesNoWorkAtAFreePort := by
  intro s t a b h
  exact ((commandMoves_step h).keep (p := fun u => u.memoryAgrees ∧ u.portBusy)
    (fun _ _ m ⟨agrees, busy⟩ => ⟨commandMove_keeps_memoryAgrees m agrees, commandMove_keeps_portBusy m agrees busy⟩) ⟨a, b⟩).2
end

section
/-! SUPPORT. StepKeepsMemoryAndQueues: the SDRAM list and the lengths of the queues through every move (R99, R102, R115, R159). -/

namespace Sys2Proof.Machine

/-! ## The write queue at the memory arbiter (R101) -/

/-- A choice of the arbiter takes a burst from the head of the queue, or leaves the queue. -/
theorem chooseMem_queue (s : State) : (chooseMem s).queue = s.queue ∨ (chooseMem s).queue = (takeBurst s.queue).2 := by
  unfold chooseMem
  split
  · cases due : s.ctl.refreshDue with
    | true =>
      rw [beginWork_of_due due]
      exact .inl rfl
    | false =>
      unfold beginWork
      (repeat' split) <;> simp [beginBurst, beginCountWrite]
  · exact .inl rfl

theorem chooseMem_queue_le (s : State) : (chooseMem s).queue.length ≤ s.queue.length := by
  rcases chooseMem_queue s with same | taken
  · rw [same]
  · have whole := congrArg List.length (takeBurst_append s.queue)
    rw [List.length_append] at whole
    rw [taken]
    omega

theorem workArrives_queue_le (s : State) : (workArrives s).queue.length ≤ s.queue.length := by
  by_cases hold : s.ctl.state = .hold
  · rw [workArrives_of_hold hold]
    exact Nat.le_refl _
  · rw [workArrives_of_notHold hold]
    exact chooseMem_queue_le s

/-! ## Every move -/

/-- The SDRAM list is canonical and the queues are within their rules. -/
def State.storeAgrees (s : State) : Prop :=
  s.memoryCanonical ∧ s.withinCapacity

/-- No queue has grown. -/
theorem storeAgrees_of_le {s t : State} (a : s.storeAgrees) (mem : t.mem.wf = true) (queue : t.queue.length ≤ s.queue.length)
    (link : t.link.u2d.length ≤ s.link.u2d.length ∧ t.link.d2u.length ≤ s.link.d2u.length) : t.storeAgrees := by
  obtain ⟨-, room, roomD, roomU⟩ := a
  exact ⟨mem, queue.trans room, link.1.trans roomD, link.2.trans roomU⟩

theorem sharedMove_keeps_storeAgrees {s t : State} (m : SharedMove s t) (a : s.storeAgrees) : t.storeAgrees := by
  obtain ⟨-, -, -, -, mem⟩ := sharedMove_keeps_contexts m
  have mem : t.mem.wf = true := mem ▸ a.1
  cases m with
  | elsewhere queue _ _ link => exact storeAgrees_of_le a mem (by rw [queue]) (by simp [link])
  | builds | choosesD | choosesU => exact storeAgrees_of_le a mem (by simp) (by simp)
  | forwardsD f room =>
    obtain ⟨-, store, -, roomU⟩ := a
    exact ⟨mem, store, by simpa using Nat.succ_le_of_lt room, roomU⟩
  | forwardsU f room =>
    obtain ⟨-, store, roomD, -⟩ := a
    exact ⟨mem, store, roomD, by simpa using Nat.succ_le_of_lt room⟩
  | queues e room =>
    obtain ⟨-, -, roomD, roomU⟩ := a
    have queued := workArrives_queue_le { s with queue := s.queue ++ [e] }
    rw [List.length_append, List.length_singleton] at queued
    exact ⟨mem, by omega, by simpa using roomD, by simpa using roomU⟩
  | marks dirty => exact storeAgrees_of_le a mem (workArrives_queue_le _) (by simp)
  | marksQuietly | holds | fallsDue => exact storeAgrees_of_le a mem (chooseMem_queue_le _) (by simp)
  | refuses | unmarks | withdraws | starts | times =>
    exact storeAgrees_of_le a mem (Nat.le_refl _) ⟨Nat.le_refl _, Nat.le_refl _⟩
  | clears => exact storeAgrees_of_le a mem (Nat.zero_le _) (by simp)

/-- Freeing its holder takes at most one frame from the U-to-D queue (R159). -/
theorem freeHolder_link (x : DHolder) (s : State) :
    ((freeHolder x s).link.u2d = s.link.u2d ∨ (freeHolder x s).link.u2d = s.link.u2d.tail) ∧
      (freeHolder x s).link.d2u = s.link.d2u ∧ (freeHolder x s).link.uSending = s.link.uSending := by
  cases x with
  | forward => exact ⟨.inr rfl, rfl, rfl⟩
  | notice | busy | context => exact ⟨.inl rfl, rfl, rfl⟩

/-- The end of a burst: the words are written, shared operations see to its half, and the port is freed. -/
theorem endBurst_moves (entries : List QueueEntry) (s : State) :
    ∃ u, SharedMoves (burstWritten entries s) u ∧ endBurst entries s = freePort u := by
  cases entries with
  | nil => exact ⟨_, .refl _, rfl⟩
  | cons e rest => exact ⟨_, sharedMoves_burstEnded (e :: rest) e.slot e.half s, rfl⟩

@[simp] theorem answerRead_link (i : Fin 4) (words : List MgmtWord) (s : State) :
    (answerRead i words s).link.u2d = s.link.u2d ∧ (answerRead i words s).link.d2u = s.link.d2u ∧
      (answerRead i words s).link.uSending = s.link.uSending := by
  unfold answerRead
  split <;> simp

theorem freePort_keeps_storeAgrees {s : State} (a : s.storeAgrees) : (freePort s).storeAgrees :=
  storeAgrees_of_le a (by simpa [State.memoryCanonical] using a.1) (chooseMem_queue_le _) (by simp)

theorem commandMove_keeps_storeAgrees {s t : State} (m : CommandMove s t) (a : s.storeAgrees) : t.storeAgrees := by
  have mem : s.mem.wf = true := a.1
  cases m with
  | shares move => exact sharedMove_keeps_storeAgrees move a
  | accepts | answers => exact storeAgrees_of_le a (by simpa using mem) (by simp) (by simp)
  | places => exact storeAgrees_of_le a (by simpa [placeRead] using mem) (workArrives_queue_le _) (by simp [placeRead])
  | sendsD x =>
    obtain ⟨u2d, d2u, -⟩ := freeHolder_link x.holder s
    refine storeAgrees_of_le a (by simpa using mem) (by simp) ⟨?_, (congrArg List.length d2u).le⟩
    rcases u2d with same | sent
    · exact (congrArg List.length same).le
    · exact (congrArg List.length sent).le.trans ((List.tail_sublist _).length_le)
  | sendsU => exact storeAgrees_of_le a mem (Nat.le_refl _) ⟨Nat.le_refl _, (List.tail_sublist _).length_le⟩
  | endsBurst entries =>
    obtain ⟨u, moves, e⟩ := endBurst_moves entries s
    have written : (burstWritten entries s).storeAgrees :=
      storeAgrees_of_le a (wf_writeBurst _ _ mem) (Nat.le_refl _) ⟨Nat.le_refl _, Nat.le_refl _⟩
    rw [e]
    exact freePort_keeps_storeAgrees (moves.keep (fun _ _ => sharedMove_keeps_storeAgrees) written)
  | endsRead => exact freePort_keeps_storeAgrees (storeAgrees_of_le a (by simpa using mem) (by simp) (by simp))
  | endsCount w at_ v =>
    refine freePort_keeps_storeAgrees (storeAgrees_of_le a (wf_write _ _ _ mem) (Nat.le_refl _) ⟨Nat.le_refl _, Nat.le_refl _⟩)
  | endsClosed => exact storeAgrees_of_le a (by simpa using mem) (chooseMem_queue_le _) (by simp)
  | entersHold => exact storeAgrees_of_le a mem (Nat.le_refl _) ⟨Nat.le_refl _, Nat.le_refl _⟩
  | endsInit =>
    refine storeAgrees_of_le a (by simpa using mem) ((chooseMem_queue_le _).trans (by simp)) (by simp)
  | endsExit => exact storeAgrees_of_le a (by simpa using mem) (chooseMem_queue_le _) (by simp)
  | resets => exact ⟨wf_empty, Nat.zero_le _, Nat.zero_le _, Nat.zero_le _⟩

end Sys2Proof.Machine

open Sys2Proof Sys2Proof.Machine

/-- Settles O7: a step is a chain of moves, and every move keeps the SDRAM list canonical and the queues within their rules. -/
theorem stepKeepsMemoryAndQueues : Obligations.StepKeepsMemoryAndQueues := by
  intro s t a h
  exact (commandMoves_step h).keep (fun _ _ => commandMove_keeps_storeAgrees) a
end

section
/-! SUPPORT. StepKeepsTheEndpoint: the frames being sent and their holders, the order of the contexts, and the read of the one READING
context through every move (R112, R140, R153, R159, R161, R169 to R171, R173). -/

namespace Sys2Proof.Machine

/-! ## Frames being sent (R153, R161) -/

/-- Whatever held a frame being sent in `s` holds it in `t`: the heads of the forward queues, the notice slot, the refusal slot and the
responses stay. -/
structure HoldersStay (s t : State) : Prop where
  forward : ∀ f, s.link.u2d.head? = some f → t.link.u2d.head? = some f
  upstream : ∀ f, s.link.d2u.head? = some f → t.link.d2u.head? = some f
  notice : ∀ n f, s.link.dSending = some ⟨.notice, f⟩ → s.notices.noticeSlot = some n → t.notices.noticeSlot = some n
  refusal : ∀ r, s.ep.refusal = some r → t.ep.refusal = some r
  node : t.ep.nodeAddress = s.ep.nodeAddress
  context : ∀ i q r, s.context i = .answering q r → t.context i = .answering q r

/-- Nothing that can hold a frame is touched. -/
theorem holdersStay_of_eq {s t : State} (same : t.link.u2d = s.link.u2d ∧ t.link.d2u = s.link.d2u ∧
    t.notices.noticeSlot = s.notices.noticeSlot ∧ t.ep = s.ep) : HoldersStay s t := by
  obtain ⟨u2d, d2u, notice, ep⟩ := same
  exact ⟨fun _ h => by rwa [u2d], fun _ h => by rwa [d2u], fun _ _ _ h => by rwa [notice], fun _ h => by rwa [ep], by rw [ep],
    fun _ _ _ h => by rwa [context_congr ep]⟩

theorem holderKeeps_of_stay {s t : State} {x : DSending} (stay : HoldersStay s t) (sending : s.link.dSending = some x)
    (held : s.holderKeeps x) : t.holderKeeps x := by
  obtain ⟨holder, frame⟩ := x
  cases holder with
  | forward => exact stay.forward _ held
  | notice =>
    obtain ⟨n, slot, same⟩ := held
    exact ⟨n, stay.notice n _ sending slot, same⟩
  | busy =>
    obtain ⟨r, refused, same⟩ := held
    exact ⟨r, stay.refusal r refused, by rw [stay.node]; exact same⟩
  | context i =>
    obtain ⟨q, r, answers, same⟩ := held
    exact ⟨q, r, stay.context i q r answers, by rw [stay.node]; exact same⟩

/-- The frames being sent go on, and their holders keep them. -/
theorem sendingAgrees_of_stay {s t : State} (a : s.sendingAgrees) (stay : HoldersStay s t)
    (same : t.link.dSending = s.link.dSending ∧ t.link.uSending = s.link.uSending) : t.sendingAgrees := by
  obtain ⟨dSending, uSending⟩ := same
  obtain ⟨downstream, upstream⟩ := a
  refine ⟨fun x h => ?_, fun f h => stay.upstream f (upstream f (uSending ▸ h))⟩
  rw [dSending] at h
  exact holderKeeps_of_stay stay h (downstream x h)

theorem noticeCandidate_holds {s : State} {express : Bool} {x : DSending} (h : s.noticeCandidate express = some x) :
    s.holderKeeps x := by
  unfold State.noticeCandidate at h
  split at h
  · cases h
  · rename_i n slot
    split at h
    · cases h
      exact ⟨n, slot, rfl⟩
    · cases h

theorem forwardCandidate_holds {s : State} {x : DSending} (h : s.forwardCandidate = some x) : s.holderKeeps x := by
  unfold State.forwardCandidate at h
  split at h
  · cases h
  · rename_i f rest queue
    cases h
    exact congrArg List.head? queue

theorem responseCandidate_holds {s : State} {x : DSending} (h : s.responseCandidate = some x) : s.holderKeeps x := by
  unfold State.responseCandidate at h
  split at h
  · cases h
  · rename_i holder r offered
    cases h
    unfold State.offeredResponse at offered
    split at offered
    · rename_i refused slot
      cases offered
      exact ⟨refused, slot, rfl⟩
    · split at offered
      · cases offered
      · split at offered
        · rename_i q r' answers
          cases offered
          exact ⟨q, r, answers, rfl⟩
        all_goals cases offered

/-- A frame that the arbiter chooses is where it was chosen from (R161). -/
theorem dCandidate_holds {s : State} {x : DSending} (h : s.dCandidate = some x) : s.holderKeeps x := by
  unfold State.dCandidate at h
  split at h
  · exact forwardCandidate_holds h
  · split at h
    · rename_i y express
      cases h
      exact noticeCandidate_holds express
    · split at h
      · rename_i y response
        cases h
        exact responseCandidate_holds response
      · split at h
        · rename_i y ordinary
          cases h
          exact noticeCandidate_holds ordinary
        · exact forwardCandidate_holds h

theorem dChoose_keeps_sendingAgrees {s : State} (a : s.sendingAgrees) : (dChoose s).sendingAgrees := by
  by_cases idle : s.dPort.receiver = .up ∧ s.link.dSending = none
  · rw [dChoose_of_idle idle.1 idle.2]
    obtain ⟨-, upstream⟩ := a
    exact ⟨fun x chosen => dCandidate_holds chosen, upstream⟩
  · rwa [show dChoose s = s from if_neg idle]

theorem uChoose_keeps_sendingAgrees {s : State} (a : s.sendingAgrees) : (uChoose s).sendingAgrees := by
  obtain ⟨downstream, upstream⟩ := a
  unfold uChoose
  split
  · exact ⟨downstream, fun f chosen => chosen⟩
  · exact ⟨downstream, upstream⟩

/-- A notice is built into an empty notice slot (R136). -/
theorem build_keeps_sendingAgrees {s : State} (a : s.sendingAgrees) : (build s).sendingAgrees := by
  cases choice : s.notices.buildChoice s.ep.nodeAddress with
  | none => rwa [build_of_none choice]
  | some c =>
    rw [build_of_some choice]
    refine dChoose_keeps_sendingAgrees (sendingAgrees_of_stay a
      ⟨fun _ => id, fun _ => id, fun n _ _ slot => ?_, fun _ => id, rfl, fun _ _ _ => id⟩ ⟨rfl, rfl⟩)
    rw [buildChoice_of_full _ (by rw [slot]; rfl)] at choice
    cases choice

/-- RESET-CAPTURE leaves the notice slot its frame when that is being sent (R146). -/
theorem clearCapture_holdersStay (s : State) : HoldersStay s (clearCapture s) := by
  have link : (clearCapture s).link = s.link := by simp
  have ep : (clearCapture s).ep = s.ep := by simp
  have notices : (clearCapture s).notices = s.notices.resetCapture s.sendingNotice := by simp [clearCapture]
  refine ⟨fun _ h => by rwa [link], fun _ h => by rwa [link], fun n f sending slot => ?_, fun _ h => by rwa [ep], by rw [ep],
    fun _ _ _ h => by rwa [context_congr ep]⟩
  have goesOn : s.sendingNotice = true := (sendingNotice_iff s).mpr ⟨f, sending⟩
  rw [notices, goesOn]
  exact resetCapture_noticeSlot_of_sending slot

theorem sharedMove_keeps_sendingAgrees {s t : State} (m : SharedMove s t) (a : s.sendingAgrees) : t.sendingAgrees := by
  cases m with
  | elsewhere _ _ _ link notice ep =>
    have contexts := congrArg Endpoint.contexts ep
    have refusal := congrArg Endpoint.refusal ep
    have node := congrArg Endpoint.nodeAddress ep
    refine sendingAgrees_of_stay a ⟨fun _ h => by rwa [link], fun _ h => by rwa [link], fun _ _ _ h => by rwa [notice],
      fun _ h => refusal.trans h, node, fun _ _ _ h => by rwa [context_of_contexts contexts]⟩ (by simp [link])
  | builds => exact build_keeps_sendingAgrees a
  | choosesD => exact dChoose_keeps_sendingAgrees a
  | choosesU => exact uChoose_keeps_sendingAgrees a
  | forwardsD f =>
    exact sendingAgrees_of_stay a
      ⟨fun g h => by simp [List.head?_append, h], fun _ => id, fun _ _ _ => id, fun _ => id, rfl, fun _ _ _ => id⟩ ⟨rfl, rfl⟩
  | forwardsU f =>
    exact sendingAgrees_of_stay a
      ⟨fun _ => id, fun g h => by simp [List.head?_append, h], fun _ _ _ => id, fun _ => id, rfl, fun _ _ _ => id⟩ ⟨rfl, rfl⟩
  | refuses x empty =>
    exact sendingAgrees_of_stay a
      ⟨fun _ => id, fun _ => id, fun _ _ _ => id, fun r h => absurd (empty.symm.trans h) nofun, rfl, fun _ _ _ => id⟩ ⟨rfl, rfl⟩
  | clears => exact sendingAgrees_of_stay a (clearCapture_holdersStay s) (by simp)
  | queues | marks | marksQuietly | holds | fallsDue => exact sendingAgrees_of_stay a (holdersStay_of_eq (by simp)) (by simp)
  | unmarks | withdraws | starts | times =>
    exact sendingAgrees_of_stay a (holdersStay_of_eq ⟨rfl, rfl, rfl, rfl⟩) ⟨rfl, rfl⟩

/-! ## Contexts and reads (R112, R169, R171) -/

theorem ordersAgree_congr {s t : State} (a : s.ordersAgree)
    (same : t.ep.contexts = s.ep.contexts ∧ t.ep.accepted = s.ep.accepted) : t.ordersAgree := by
  obtain ⟨contexts, accepted⟩ := same
  simpa only [State.ordersAgree, context_of_contexts contexts, accepted] using a

theorem readsAgree_congr {s t : State} (a : s.readsAgree)
    (same : t.ep.contexts = s.ep.contexts ∧ t.ctl.reads = s.ctl.reads) : t.readsAgree := by
  obtain ⟨contexts, reads⟩ := same
  simpa only [State.readsAgree, context_of_contexts contexts, reads] using a

/-- A context that keeps its order, or is freed. -/
theorem ordersAgree_of_setContext {s : State} {i : Fin 4} {c : Context} (a : s.ordersAgree)
    (order : ∀ n, c.order = some n → (s.context i).order = some n) : (s.setContext i c).ordersAgree := by
  have before : ∀ j n, ((s.setContext i c).context j).order = some n → (s.context j).order = some n := fun j n h => by
    by_cases e : j = i
    · subst e
      rw [context_setContext] at h
      exact order n h
    · rwa [context_setContext_ne s c e] at h
  obtain ⟨taken, distinct⟩ := a
  exact ⟨fun j n h => taken j n (before j n h), fun j k n hj hk => distinct j k n (before j n hj) (before k n hk)⟩

/-- A context that is READING after as before. -/
theorem readsAgree_of_setContext {s : State} {i : Fin 4} {c : Context} (a : s.readsAgree)
    (same : c.isReading = (s.context i).isReading) : (s.setContext i c).readsAgree := by
  obtain ⟨one, reading⟩ := a
  refine ⟨one, fun j => ?_⟩
  by_cases e : j = i
  · subst e
    rw [context_setContext, same]
    exact reading j
  · rw [context_setContext_ne s c e]
    exact reading j

/-- A context that is not ANSWERING holds no frame being sent. -/
theorem setContext_keeps_sendingAgrees {s : State} {i : Fin 4} (c : Context) (a : s.sendingAgrees)
    (silent : ∀ q r, s.context i ≠ .answering q r) : (s.setContext i c).sendingAgrees := by
  refine sendingAgrees_of_stay a
    ⟨fun _ => id, fun _ => id, fun _ _ _ => id, fun _ => id, rfl, fun j q r h => ?_⟩ ⟨rfl, rfl⟩
  have away : j ≠ i := fun e => silent q r (e ▸ h)
  rw [context_setContext_ne s c away, h]

/-- The request taken is the last in order (R169). -/
theorem acceptRequest_keeps_ordersAgree {s : State} {i : Fin 4} (r : Request) (a : s.ordersAgree) :
    (acceptRequest i r s).ordersAgree := by
  have here : (acceptRequest i r s).context i = .waiting ⟨r, s.ep.accepted⟩ := context_setContext s i _
  have others : ∀ j, j ≠ i → (acceptRequest i r s).context j = s.context j := fun j e => context_setContext_ne s _ e
  obtain ⟨taken, distinct⟩ := a
  have last : ∀ n, ((acceptRequest i r s).context i).order = some n → n = s.ep.accepted := fun n h => by
    rw [here] at h
    exact (Option.some.inj h).symm
  refine ⟨fun j n h => ?_, fun j k n hj hk => ?_⟩
  · change n < s.ep.accepted + 1
    by_cases e : j = i
    · have := last n (e ▸ h)
      omega
    · rw [others j e] at h
      exact Nat.lt_succ_of_lt (taken j n h)
  · by_cases ej : j = i <;> by_cases ek : k = i
    · rw [ej, ek]
    · rw [others k ek] at hk
      exact absurd (taken k n hk) (by rw [last n (ej ▸ hj)]; exact Nat.lt_irrefl _)
    · rw [others j ej] at hj
      exact absurd (taken j n hj) (by rw [last n (ek ▸ hk)]; exact Nat.lt_irrefl _)
    · rw [others j ej] at hj
      rw [others k ek] at hk
      exact distinct j k n hj hk

/-! ## Every move -/

/-- An operation that touches neither link, notice slot, endpoint nor reads. -/
theorem endpointAgrees_congr {s t : State} (a : s.endpointAgrees) (same : t.link = s.link ∧
    t.notices.noticeSlot = s.notices.noticeSlot ∧ t.ep = s.ep ∧ t.ctl.reads = s.ctl.reads) : t.endpointAgrees := by
  obtain ⟨link, notice, ep, reads⟩ := same
  obtain ⟨sending, orders, read⟩ := a
  exact ⟨sendingAgrees_of_stay sending (holdersStay_of_eq (by simp [link, notice, ep])) (by simp [link]),
    ordersAgree_congr orders (by simp [ep]), readsAgree_congr read (by simp [ep, reads])⟩

theorem sharedMove_keeps_endpointAgrees {s t : State} (m : SharedMove s t) (a : s.endpointAgrees) : t.endpointAgrees := by
  obtain ⟨contexts, accepted, -, reads, -⟩ := sharedMove_keeps_contexts m
  obtain ⟨sending, orders, read⟩ := a
  exact ⟨sharedMove_keeps_sendingAgrees m sending, ordersAgree_congr orders ⟨contexts, accepted⟩,
    readsAgree_congr read ⟨contexts, reads⟩⟩

theorem sharedMoves_keep_endpointAgrees {s t : State} (m : SharedMoves s t) (a : s.endpointAgrees) : t.endpointAgrees :=
  m.keep (fun _ _ => sharedMove_keeps_endpointAgrees) a

theorem chooseMem_keeps_endpointAgrees {s : State} (a : s.endpointAgrees) : (chooseMem s).endpointAgrees :=
  endpointAgrees_congr a (by simp)

theorem accepts_endpointAgrees {s : State} {i : Fin 4} (r : Request) (a : s.endpointAgrees) (free : s.context i = .free) :
    (acceptRequest i r s).endpointAgrees := by
  obtain ⟨sending, orders, reads⟩ := a
  have placed : (s.setContext i (.waiting ⟨r, s.ep.accepted⟩)).sendingAgrees :=
    setContext_keeps_sendingAgrees _ sending fun q x h => absurd (free.symm.trans h) nofun
  have read : (s.setContext i (.waiting ⟨r, s.ep.accepted⟩)).readsAgree := readsAgree_of_setContext reads (by rw [free]; rfl)
  exact ⟨placed, acceptRequest_keeps_ordersAgree r orders, read⟩

theorem answered_order (q : Taken) (status : Status) (words : List MgmtWord) {n : Nat}
    (h : (answered q status words).order = some n) : n = q.order := by
  unfold answered at h
  split at h
  · cases h
  · exact (Option.some.inj h).symm

theorem answered_isReading (q : Taken) (status : Status) (words : List MgmtWord) :
    (answered q status words).isReading = false := by
  unfold answered
  split <;> rfl

theorem answers_endpointAgrees {s : State} {i : Fin 4} {q : Taken} (status : Status) (words : List MgmtWord)
    (a : s.endpointAgrees) (waiting : s.context i = .waiting q) : (s.setContext i (answered q status words)).endpointAgrees := by
  obtain ⟨sending, orders, reads⟩ := a
  refine ⟨setContext_keeps_sendingAgrees _ sending fun q x h => absurd (waiting.symm.trans h) nofun,
    ordersAgree_of_setContext orders fun n h => ?_, readsAgree_of_setContext reads ?_⟩
  · rw [waiting, answered_order q status words h]
    rfl
  · rw [waiting, answered_isReading]
    rfl

/-- A FETCH places its read while no context is READING, so that it is the only one (R112, R171). -/
theorem places_endpointAgrees {s : State} {i : Fin 4} {q : Taken} (a : s.endpointAgrees) (waiting : s.context i = .waiting q)
    (alone : ∀ j, (s.context j).isReading = false) :
    (workArrives ((placeRead i q.request s).setContext i (.reading q))).endpointAgrees := by
  obtain ⟨sending, orders, -, reading⟩ := a
  have none : s.ctl.reads = [] := List.eq_nil_iff_forall_not_mem.mpr fun r m => by
    have readsOn := (reading r.context).mpr ⟨r, m, rfl⟩
    rw [alone] at readsOn
    cases readsOn
  have placed : (s.setContext i (.reading q)).sendingAgrees :=
    setContext_keeps_sendingAgrees _ sending fun q x h => absurd (waiting.symm.trans h) nofun
  have order : (s.setContext i (.reading q)).ordersAgree := ordersAgree_of_setContext orders fun n h => by rwa [waiting]
  refine endpointAgrees_congr (s := (placeRead i q.request s).setContext i (.reading q)) ⟨placed, order, ?_, fun j => ?_⟩
    (by simp)
  · simp [placeRead, none]
  · have reads : ((placeRead i q.request s).setContext i (.reading q)).ctl.reads =
        [⟨BitVec.ofNat 24 q.request.address, q.request.count, i⟩] := by simp [placeRead, none]
    rw [reads]
    by_cases e : j = i
    · subst e
      simp [Context.isReading]
    · have other : ((placeRead i q.request s).setContext i (.reading q)).context j = s.context j := context_setContext_ne s _ e
      rw [other, alone]
      simp [Ne.symm e]

/-- The holder of the frame sent is freed; a context that held it was ANSWERING, and no read is its (R140, R169, R170). -/
theorem sendsD_endpointAgrees {s : State} {x : DSending} (a : s.endpointAgrees) (sent : s.link.dSending = some x) :
    (clearDOut (freeHolder x.holder s)).endpointAgrees := by
  obtain ⟨⟨downstream, upstream⟩, orders, reads⟩ := a
  obtain ⟨-, d2u, uSending⟩ := freeHolder_link x.holder s
  have sending : (clearDOut (freeHolder x.holder s)).sendingAgrees := by
    refine ⟨nofun, fun f h => ?_⟩
    change (freeHolder x.holder s).link.d2u.head? = some f
    rw [d2u]
    exact upstream f (uSending ▸ h)
  have held := downstream x sent
  obtain ⟨holder, frame⟩ := x
  cases holder with
  | forward | notice | busy => exact ⟨sending, orders, reads⟩
  | context i =>
    obtain ⟨q, r, answers, -⟩ := held
    have order : (s.setContext i .free).ordersAgree := ordersAgree_of_setContext orders nofun
    have read : (s.setContext i .free).readsAgree := readsAgree_of_setContext reads (by rw [answers]; rfl)
    exact ⟨sending, order, read⟩

theorem sendsU_endpointAgrees {s : State} (a : s.endpointAgrees) : (clearUOut s).endpointAgrees := by
  obtain ⟨⟨downstream, -⟩, orders, reads⟩ := a
  exact ⟨⟨downstream, nofun⟩, orders, reads⟩

/-- A read's end answers the one READING context and leaves the controller no read (R114, R171). -/
theorem endsRead_endpointAgrees {s : State} {r : FetchRead} {rest : List FetchRead} (a : s.endpointAgrees)
    (reads : s.ctl.reads = r :: rest) : (endRead r rest s).endpointAgrees := by
  obtain ⟨sending, orders, one, reading⟩ := a
  have last : rest = [] := by
    rw [reads] at one
    exact List.eq_nil_of_length_eq_zero (by simpa using one)
  subst last
  rw [reads] at reading
  have readsOn : (s.context r.context).isReading = true := (reading r.context).mpr ⟨r, by simp, rfl⟩
  cases state : s.context r.context with
  | free | waiting | answering => simp [state, Context.isReading] at readsOn
  | reading q =>
    have done : (readDone r [] s).context r.context = .reading q := state
    refine endpointAgrees_congr (s := answerRead r.context (packWords (s.mem.fetchWords s.free r.address r.count)) (readDone r [] s))
      ?_ (by simp [endRead, freePort])
    simp only [answerRead, done]
    refine SharedMoves.keep (fun _ _ => sharedMove_keeps_endpointAgrees) (SharedMove.one .choosesD) ?_
    have sent : (readDone r [] s).sendingAgrees := sendingAgrees_of_stay sending (holdersStay_of_eq (by simp)) (by simp)
    refine ⟨setContext_keeps_sendingAgrees _ sent fun q x h => absurd (done.symm.trans h) nofun,
      ordersAgree_of_setContext (ordersAgree_congr orders (by simp)) fun n h => ?_, Nat.zero_le _, fun j => ?_⟩
    · rw [done]
      exact h
    · refine iff_of_false (fun h => ?_) (by simp [readDone])
      by_cases e : j = r.context
      · rw [e, context_setContext] at h
        cases h
      · rw [context_setContext_ne _ _ e] at h
        obtain ⟨x, m, own⟩ := (reading j).mp h
        rw [List.mem_singleton] at m
        exact e (by rw [← own, m])

theorem commandMove_keeps_endpointAgrees {s t : State} (m : CommandMove s t) (a : s.endpointAgrees) : t.endpointAgrees := by
  cases m with
  | shares move => exact sharedMove_keeps_endpointAgrees move a
  | accepts i r free => exact accepts_endpointAgrees r a free
  | answers i q status words waiting => exact answers_endpointAgrees status words a waiting
  | places i q waiting alone => exact places_endpointAgrees a waiting alone
  | sendsD x sending => exact sendsD_endpointAgrees a sending
  | sendsU => exact sendsU_endpointAgrees a
  | endsBurst entries =>
    obtain ⟨u, moves, e⟩ := endBurst_moves entries s
    have written : (burstWritten entries s).endpointAgrees := endpointAgrees_congr a ⟨rfl, rfl, rfl, rfl⟩
    rw [e]
    exact chooseMem_keeps_endpointAgrees (s := { u with ctl := { u.ctl with op := none } })
      (endpointAgrees_congr (sharedMoves_keep_endpointAgrees moves written) ⟨rfl, rfl, rfl, rfl⟩)
  | endsRead r rest _ reads => exact endsRead_endpointAgrees a reads
  | endsCount | endsClosed | endsExit => exact chooseMem_keeps_endpointAgrees (endpointAgrees_congr a ⟨rfl, rfl, rfl, rfl⟩)
  | entersHold => exact endpointAgrees_congr a ⟨rfl, rfl, rfl, rfl⟩
  | endsInit =>
    have ready : (enterReady .ready s).endpointAgrees := endpointAgrees_congr a ⟨rfl, rfl, rfl, rfl⟩
    exact chooseMem_keeps_endpointAgrees (sharedMoves_keep_endpointAgrees (SharedMoves.refl _).raised ready)
  | resets straps => exact powerOn_endpointAgrees straps s.free s.pending

end Sys2Proof.Machine

open Sys2Proof Sys2Proof.Machine

/-- Settles O17: a step is a chain of moves, and every move keeps the frames with their holders, the contexts in order and the read with
its context. -/
theorem stepKeepsTheEndpoint : Obligations.StepKeepsTheEndpoint := by
  intro s t a h
  exact (commandMoves_step h).keep (fun _ _ => commandMove_keeps_endpointAgrees) a
end

section
/-! SUPPORT. FetchPlacesItsRead: the checks of a FETCH, and the read it places (R112, R126, R171, R176). -/

namespace Sys2Proof.Machine

/-! ## The checks of a FETCH (R176) -/

theorem fetchChecks_of_count {r : Request} (memory : MemState) (h : r.count < 1 ∨ 32 < r.count) :
    fetchChecks r memory = some .badValue := if_pos h

theorem fetchChecks_of_counted {r : Request} (memory : MemState) (least : 1 ≤ r.count) (most : r.count ≤ 32) :
    fetchChecks r memory = if 16777216 < r.address + r.count then some .badIndex
      else if memory = .uninit then some .notReady else none :=
  if_neg (by omega)

theorem fetchChecks_of_beyond {r : Request} (memory : MemState) (least : 1 ≤ r.count) (most : r.count ≤ 32)
    (beyond : 16777216 < r.address + r.count) : fetchChecks r memory = some .badIndex := by
  rw [fetchChecks_of_counted memory least most, if_pos beyond]

theorem fetchChecks_of_uninit {r : Request} (least : 1 ≤ r.count) (most : r.count ≤ 32) (within : r.address + r.count ≤ 16777216) :
    fetchChecks r .uninit = some .notReady := by
  rw [fetchChecks_of_counted _ least most, if_neg (Nat.not_lt.mpr within), if_pos rfl]

theorem fetchChecks_of_started {r : Request} {memory : MemState} (least : 1 ≤ r.count) (most : r.count ≤ 32)
    (within : r.address + r.count ≤ 16777216) (started : memory ≠ .uninit) : fetchChecks r memory = none := by
  rw [fetchChecks_of_counted _ least most, if_neg (Nat.not_lt.mpr within), if_neg started]

/-! ## Its execution -/

theorem fetchForm_of_op {r : Request} (h : r.op = opFetch) : (r.op == opFetch || r.undefinedOp) = true := by
  simp [h]

/-- A check that finds something answers with its status and changes nothing. -/
theorem execute_fetch_of_refused {s : State} {i : Fin 4} {q : Taken} {status : Status} (now : s.executesNow i q)
    (op : q.request.op = opFetch) (found : fetchChecks q.request s.ctl.state = some status) :
    answersWith .fetch s s i q status [] := by
  refine ⟨_, rfl, execute_answers now (fetchForm_of_op op) ?_⟩
  simp only [runFetch, found]
  rfl

/-- The state in which a FETCH has its read placed and its context READING, the controller not told of it. -/
def State.readPlaced (s : State) (i : Fin 4) (q : Taken) : State :=
  (placeRead i q.request s).setContext i (.reading q)

/-- Checks that find nothing let the read arrive at the controller. -/
theorem execute_fetch_of_accepted {s : State} {i : Fin 4} {q : Taken} (now : s.executesNow i q)
    (op : q.request.op = opFetch) (clear : fetchChecks q.request s.ctl.state = none) :
    exec .fetch s = .next (workArrives (s.readPlaced i q)) := by
  have placed : runFetch i q.request s = (placeRead i q.request s, .placed) := by simp only [runFetch, clear]
  change Host.Outcome.next (execute _ runFetch s) = _
  rw [execute_now runFetch now (fetchForm_of_op op), placed]
  rfl

theorem readPlaced_context (s : State) (i : Fin 4) (q : Taken) : (s.readPlaced i q).context i = .reading q :=
  context_setContext _ i _

theorem readPlaced_context_ne {s : State} {i j : Fin 4} (q : Taken) (h : j ≠ i) : (s.readPlaced i q).context j = s.context j :=
  context_setContext_ne _ _ h

/-- Outside HOLD the arrival leaves the memory state and the timing in effect. -/
theorem workArrives_state_of_notHold {s : State} (h : s.ctl.state ≠ .hold) :
    (workArrives s).ctl.state = s.ctl.state ∧ (workArrives s).ctl.effect = s.ctl.effect := by
  rw [workArrives_of_notHold h]
  simp

end Sys2Proof.Machine

open Sys2Proof Sys2Proof.Machine

/-- Settles O44: the checks in their order, then the read placed and its arrival at the controller. -/
theorem fetchPlacesItsRead : Obligations.FetchPlacesItsRead := by
  intro s i q now op
  refine ⟨fun count => ?_, fun least most beyond => ?_, fun least most within uninit => ?_, fun least most within started => ?_⟩
  · exact execute_fetch_of_refused now op (fetchChecks_of_count _ count)
  · exact execute_fetch_of_refused now op (fetchChecks_of_beyond _ least most beyond)
  · exact execute_fetch_of_refused now op (uninit ▸ fetchChecks_of_uninit least most within)
  · have here : (workArrives (s.readPlaced i q)).ep = (s.readPlaced i q).ep := by simp
    refine ⟨_, execute_fetch_of_accepted now op (fetchChecks_of_started least most within started), ?_, fun j other => ?_, ?_,
      fun hold => ?_, fun awake => workArrives_state_of_notHold (s := s.readPlaced i q) awake, ?_⟩
    · rw [context_congr here, readPlaced_context]
    · rw [context_congr here, readPlaced_context_ne q other]
    · simp [State.readPlaced, placeRead]
    · rw [workArrives_of_hold (s := s.readPlaced i q) hold]
      exact ⟨rfl, rfl, rfl⟩
    · exact congrArg (fun u : State => { u with ep := s.ep, ctl := s.ctl, queue := s.queue }) (workArrives_frame (s.readPlaced i q))
end

section
/-! SUPPORT. MemoryOperationsEndAsTheirRulesSay: the words a read packs, the rows it leaves open, and each end at the memory port (R105,
R107, R110, R113 to R115, R120, R123, R127). -/

namespace Sys2Proof.Machine

/-! ## Words read and packed (R113, R114) -/

theorem fetchWords_length (m : Memory) (free : Nat) (a : MemAddr) (count : Nat) : (m.fetchWords free a count).length = count := by
  simp [Memory.fetchWords]

/-- A word that was written is read back in its place. -/
theorem fetchWords_of_read {m : Memory} {a : MemAddr} {count k : Nat} {v : MemWord} (free : Nat) (within : k < count)
    (read : m.read (a + BitVec.ofNat 24 k) = some v) : (m.fetchWords free a count)[k]? = some v := by
  simp [Memory.fetchWords, within, read]

theorem packWords_length : ∀ words : List MemWord, (packWords words).length = (words.length + 1) / 2
  | [] => rfl
  | [_] => by simp [packWords]
  | lo :: hi :: rest => by
    have ih := packWords_length rest
    simp only [packWords, List.length_cons, ih]
    omega

/-- A pair gives one word, the later of the two in the upper half. -/
theorem packWords_pair : ∀ (words : List MemWord) (k : Nat) {lo hi : MemWord}, words[2 * k]? = some lo →
    words[2 * k + 1]? = some hi → (packWords words)[k]? = some (hi ++ lo)
  | [], _, _, _ => nofun
  | [_], _, _, _ => nofun
  | _ :: _ :: _, 0, _, _ => fun low high => by
    cases low
    cases high
    rfl
  | _ :: _ :: rest, k + 1, _, _ => fun low high => packWords_pair rest k low high

/-- A last word without a partner is alone in the lower half. -/
theorem packWords_single : ∀ (words : List MemWord) (k : Nat) {lo : MemWord}, words[2 * k]? = some lo →
    words[2 * k + 1]? = none → (packWords words)[k]? = some (lo.zeroExtend 32)
  | [], _, _ => nofun
  | [_], 0, _ => fun low _ => by
    cases low
    rfl
  | [_], _ + 1, _ => nofun
  | _ :: _ :: _, 0, _ => nofun
  | _ :: _ :: rest, k + 1, _ => fun low alone => packWords_single rest k low alone

/-! ## Rows left open by a read (R105) -/

/-- The row of the k-th access stays open when no later access is to its bank. -/
theorem openRows_at (b : Banks) {l : List MemAddr} {k : Nat} (within : k < l.length)
    (last : ∀ m (bound : m < l.length), k < m → bankOf l[m] ≠ bankOf l[k]) :
    (openRows b l)[bankOf l[k]] = some (rowOf l[k]) := by
  have split : l = l.take k ++ l[k] :: l.drop (k + 1) := by simp
  have opened := openRows_last b (a := l[k]) (l.take k) (after := l.drop (k + 1)) fun c later => by
    obtain ⟨m, bound, rfl⟩ := List.mem_drop_iff_getElem.mp later
    exact last _ _ (by omega)
  rwa [← split] at opened

theorem addresses_length (r : FetchRead) : r.addresses.length = r.count := by
  simp [FetchRead.addresses]

theorem addresses_getElem (r : FetchRead) {k : Nat} (within : k < r.addresses.length) :
    r.addresses[k] = r.address + BitVec.ofNat 24 k := by
  simp [FetchRead.addresses]

theorem openRows_addresses_last (b : Banks) (r : FetchRead) {k : Nat} (within : k < r.count)
    (last : ∀ l, k < l → l < r.count → bankOf (r.address + BitVec.ofNat 24 l) ≠ bankOf (r.address + BitVec.ofNat 24 k)) :
    (openRows b r.addresses)[bankOf (r.address + BitVec.ofNat 24 k)] = some (rowOf (r.address + BitVec.ofNat 24 k)) := by
  have bound : k < r.addresses.length := by rwa [addresses_length]
  have opened := openRows_at b bound fun l inside later => by
    rw [addresses_getElem, addresses_getElem]
    exact last l later (by rwa [addresses_length] at inside)
  simpa only [addresses_getElem] using opened

theorem openRows_addresses_ne (b : Banks) (r : FetchRead) {j : Fin 4}
    (away : ∀ k, k < r.count → bankOf (r.address + BitVec.ofNat 24 k) ≠ j) : (openRows b r.addresses)[j] = b[j] := by
  refine openRows_ne b fun a m => ?_
  obtain ⟨k, within, rfl⟩ := List.mem_map.mp m
  exact away k (List.mem_range.mp within)

/-! ## The end of a FETCH read (R114, R171) -/

/-- The words with which a read is answered. -/
def State.readPacked (s : State) (r : FetchRead) : List MgmtWord :=
  packWords (s.mem.fetchWords s.free r.address r.count)

/-- The read has left the controller and its context is ANSWERING; the transmit arbiter has not yet chosen. -/
def State.readOffered (s : State) (r : FetchRead) (later : List FetchRead) (q : Taken) : State :=
  (readDone r later s).setContext r.context (.answering q ⟨q.request.tag, .ok, s.readPacked r⟩)

/-- The state in which the memory arbiter chooses after a read's end. -/
def State.readEnded (s : State) (r : FetchRead) (later : List FetchRead) (q : Taken) : State :=
  let u := dChoose (s.readOffered r later q)
  { u with ctl := { u.ctl with op := none } }

theorem exec_fetchReadEnd {s : State} {r : FetchRead} {later : List FetchRead} {q : Taken} (op : s.ctl.op = some .fetchRead)
    (reads : s.ctl.reads = r :: later) (context : s.context r.context = .reading q) :
    exec .fetchReadEnd s = .next (chooseMem (s.readEnded r later q)) := by
  have reading : (readDone r later s).context r.context = .reading q := context
  have answered : answerRead r.context (s.readPacked r) (readDone r later s) = dChoose (s.readOffered r later q) := by
    simp only [answerRead, reading, State.readOffered]
  change execFetchReadEnd s = _
  simp only [execFetchReadEnd, op, reads]
  exact congrArg (fun u => Host.Outcome.next (freePort u)) answered

theorem readEnded_ep (s : State) (r : FetchRead) (later : List FetchRead) (q : Taken) :
    (s.readEnded r later q).ep =
      { s.ep with contexts := s.ep.contexts.set r.context (.answering q ⟨q.request.tag, .ok, s.readPacked r⟩) } := by
  have kept : (s.readEnded r later q).ep = (s.readOffered r later q).ep := by simp [State.readEnded]
  rw [kept]
  rfl

theorem readEnded_ctl (s : State) (r : FetchRead) (later : List FetchRead) (q : Taken) :
    (s.readEnded r later q).ctl =
      { s.ctl with op := none, reads := later, banks := openRows s.ctl.banks r.addresses } := by
  simp [State.readEnded, State.readOffered, readDone]

/-- The response may be begun at D-out; nothing else of the link moves. -/
theorem readEnded_linkFrame (s : State) (r : FetchRead) (later : List FetchRead) (q : Taken) :
    { (s.readEnded r later q).link with dSending := s.link.dSending } = s.link := by
  change { (dChoose (s.readOffered r later q)).link with dSending := s.link.dSending } = s.link
  unfold dChoose
  split <;> rfl

theorem readEnded_sends {s : State} (r : FetchRead) (later : List FetchRead) (q : Taken) (idle : s.link.dSending = none)
    (up : s.dPort.receiver = .up) : (s.readEnded r later q).link.dSending = (s.readEnded r later q).dCandidate := by
  have chosen := dChoose_of_idle (s := s.readOffered r later q) up idle
  have sending : (s.readEnded r later q).link.dSending = (s.readOffered r later q).dCandidate :=
    congrArg (fun u : State => u.link.dSending) chosen
  exact sending.trans (dCandidate_dChoose (s.readOffered r later q)).symm

theorem readEnded_waits {s : State} (r : FetchRead) (later : List FetchRead) (q : Taken)
    (closed : s.link.dSending ≠ none ∨ s.dPort.receiver ≠ .up) : (s.readEnded r later q).link = s.link := by
  have same : dChoose (s.readOffered r later q) = s.readOffered r later q := by
    rcases closed with sending | down
    · exact dChoose_of_sending (s := s.readOffered r later q) sending
    · exact dChoose_of_down (s := s.readOffered r later q) down
  have link : (dChoose (s.readOffered r later q)).link = (s.readOffered r later q).link := by rw [same]
  exact link

theorem readEnded_frame (s : State) (r : FetchRead) (later : List FetchRead) (q : Taken) :
    { s.readEnded r later q with ep := s.ep, ctl := s.ctl, link := s.link, free := s.free } = s := by
  apply State.ext_fields <;> simp [State.readEnded, State.readOffered, readDone]

/-! ## The other ends -/

theorem exec_refreshDue {s : State} (runs : s.ctl.timer.running = true) :
    exec .refreshDue s =
      .next (chooseMem { s with ctl := { s.ctl with refreshDue := true, timer := s.ctl.loadedTimer } }) := by
  change execRefreshDue s = _
  simp only [execRefreshDue, runs, if_true]

theorem exec_refreshEnd {s : State} (op : s.ctl.op = some .refresh) : exec .refreshEnd s = .next (chooseMem (endClosed s)) := by
  change execRefreshEnd s = _
  simp only [execRefreshEnd, op, if_true]

theorem exec_countTableWriteEnd {s : State} {w : Fin 16} {a : MemAddr} {v : MemWord} (op : s.ctl.op = some (.countWrite w a v)) :
    exec .countTableWriteEnd s = .next (freePort (countWritten a v s)) := by
  change execCountTableWriteEnd s = _
  simp only [execCountTableWriteEnd, op]

theorem exec_initSequenceEnd {s : State} (op : s.ctl.op = some .initSequence) :
    exec .initSequenceEnd s = .next (chooseMem (raise classState srcMemoryReady (enterReady .ready s))) := by
  change execInitSequenceEnd s = _
  simp only [execInitSequenceEnd, op, if_true]

theorem exec_closingOperationEnd_of_rest {s : State} (op : s.ctl.op = some .closing) (request : s.ctl.holdRequest = true)
    (rest : s.workWaits = false) : exec .closingOperationEnd s = .next (enterHold (endClosed s)) := by
  change execClosingOperationEnd s = _
  simp only [execClosingOperationEnd, op, request, rest, and_self, if_true]

theorem exec_closingOperationEnd_of_work {s : State} (op : s.ctl.op = some .closing)
    (goesOn : ¬ (s.ctl.holdRequest = true ∧ s.workWaits = false)) :
    exec .closingOperationEnd s = .next (chooseMem (endClosed s)) := by
  change execClosingOperationEnd s = _
  simp only [execClosingOperationEnd, op, if_true]
  rw [if_neg goesOn]

theorem exec_exitSequenceEnd {s : State} {m : Bool} (op : s.ctl.op = some (.exitSequence m)) :
    exec .exitSequenceEnd s = .next (chooseMem (enterReady (if s.ctl.holdRequest then .entering else .ready) s)) := by
  change execExitSequenceEnd s = _
  simp only [execExitSequenceEnd, op]

end Sys2Proof.Machine

open Sys2Proof Sys2Proof.Machine

/-- Settles O59: each end by its execution equation, the read's with its words, its rows and its response. -/
theorem memoryOperationsEndAsTheirRulesSay : Obligations.MemoryOperationsEndAsTheirRulesSay := by
  intro s
  refine ⟨exec_refreshDue, exec_refreshEnd, fun r later q op reads context => ?_, fun w a v op => ?_, fun op => ?_, fun op => ?_,
    fun m => exec_exitSequenceEnd⟩
  · have ctl := readEnded_ctl s r later q
    have banks : (s.readEnded r later q).ctl.banks = openRows s.ctl.banks r.addresses := congrArg MemCtl.banks ctl
    refine ⟨s.readEnded r later q, s.mem.fetchWords s.free r.address r.count, s.readPacked r,
      exec_fetchReadEnd op reads context, fetchWords_length .., fun k v => fetchWords_of_read s.free, ?_,
      fun k lo hi => packWords_pair _ k, fun k lo => packWords_single _ k, readEnded_ep s r later q, ?_, fun k within last => ?_,
      fun b away => ?_, readEnded_linkFrame s r later q, readEnded_sends r later q, readEnded_waits r later q,
      readEnded_frame s r later q⟩
    · rw [State.readPacked, packWords_length, fetchWords_length]
    · rw [banks]
      exact ctl
    · simp only [banks]
      exact openRows_addresses_last _ r within last
    · simp only [banks]
      exact openRows_addresses_ne _ r away
  · exact ⟨s.mem.write a v, exec_countTableWriteEnd op, read_write _ a v, fun b => read_write_ne _ v⟩
  · exact ⟨_, exec_initSequenceEnd op, raise_only classState srcMemoryReady (enterReady .ready s) (by decide)⟩
  · refine ⟨fun rest => ?_, fun work => ?_⟩
    · obtain ⟨request, waits⟩ := rest
      exact exec_closingOperationEnd_of_rest op request ((workWaits_iff s).mpr waits)
    · exact exec_closingOperationEnd_of_work op fun ⟨request, rest⟩ => work ⟨request, (workWaits_iff s).mp rest⟩
end

section
/-! SUPPORT. TimingSetWriteNeedsUninitOrHold: the fields of the timing words, and the cases of a WRITE to space 6 (R128). -/

namespace Sys2Proof.Machine

/-! ## Fields of the words (11.4) -/

theorem bits_activateField (w : MgmtWord) : bits w 8 4 = w.toNat / 256 % 16 := by
  simp [bits]

theorem bits_rowOpenField (w : MgmtWord) : bits w 24 4 = w.toNat / 16777216 % 16 := by
  simp [bits]

/-- The ranges of R128, a word not covered passing. -/
theorem timingInRange_iff (r : Request) :
    timingInRange r = true ↔
      (∀ v, r.covered 2 = some v → 256 ≤ v.toNat % 65536 ∧ v.toNat % 65536 ≤ 16383) ∧
        ∀ v, r.covered 3 = some v → 2 ≤ v.toNat % 16 ∧ v.toNat % 16 ≤ 3 ∧ 1 ≤ v.toNat / 256 % 16 ∧ v.toNat / 256 % 16 ≤ 7 ∧
          1 ≤ v.toNat / 65536 % 16 ∧ v.toNat / 65536 % 16 ≤ 7 ∧ 2 ≤ v.toNat / 16777216 % 16 := by
  simp only [timingInRange, Bool.and_eq_true, wordPasses_iff, decide_eq_true_eq, bits_low16, bits_low4, bits_activateField,
    bits_boundField, bits_rowOpenField, and_assoc]

/-- The timing set with the words carried, field by field. -/
theorem timingSet_withWords (t : TimingSet) (w2 w3 : Option MgmtWord) :
    t.withWords w2 w3 =
      { refreshInterval := w2.elim t.refreshInterval fun v => v.toNat % 65536
        readLatency := w3.elim t.readLatency fun v => v.toNat % 16
        activateToAccess := w3.elim t.activateToAccess fun v => v.toNat / 256 % 16
        precharge := w3.elim t.precharge fun v => v.toNat / 65536 % 16
        minRowOpen := w3.elim t.minRowOpen fun v => v.toNat / 16777216 % 16 } := by
  simp only [TimingSet.withWords, carried_eq_elim, bits_low16, bits_low4, bits_activateField, bits_boundField, bits_rowOpenField]

theorem writesTiming_iff (r : Request) : writesTiming r = true ↔ r.covered 2 ≠ none ∨ r.covered 3 ≠ none := by
  simp only [writesTiming, Bool.or_eq_true, isSome_covered]

/-! ## The WRITE (R128) -/

theorem writeTiming_of_uncovered {r : Request} (s : State) (uncovered : ¬ writesTiming r = true) :
    writeTiming r s = (s, .answer .ok []) := by
  simp only [writeTiming, uncovered, Bool.not_false, if_true, acceptedWith]

theorem writeTiming_of_badValue {r : Request} (s : State) (covered : writesTiming r = true) (bad : ¬ timingInRange r = true) :
    writeTiming r s = (s, .answer .badValue []) := by
  simp only [writeTiming, covered, bad, Bool.not_true, Bool.not_false, Bool.false_eq_true, if_true, if_false, refusedWith]

/-- In range, the memory state decides. -/
theorem writeTiming_of_inRange {r : Request} (s : State) (covered : writesTiming r = true) (inRange : timingInRange r = true) :
    writeTiming r s =
      if s.ctl.state ≠ .uninit ∧ s.ctl.state ≠ .hold then (s, .answer .notHeld [])
      else ({ s with ctl := { s.ctl with written := s.ctl.written.withWords (r.covered 2) (r.covered 3) } }, .answer .ok []) := by
  simp only [writeTiming, covered, inRange, Bool.not_true, Bool.false_eq_true, if_false, refusedWith, acceptedWith]

/-- A WRITE to space 6 is answered as its owner answers: by the row WRITE, and by its own row when it covers a timing word. -/
theorem answersWith_of_writeTiming {s u : State} {i : Fin 4} {q : Taken} {status : Status} {c : Instr} (h : s.runsWrite 6 i q)
    (row : c = .write ∨ (c = .writeTimingSet ∧ writesTiming q.request = true))
    (owner : writeTiming q.request s = (u, .answer status [])) : answersWith c s u i q status [] := by
  obtain ⟨run, space, isWrite⟩ := runWrite_of_runsWrite h
  obtain ⟨now, writes, -⟩ := h
  have answers : runWrite i q.request s = (u, .answer status []) := by
    rw [run, writeOwner, space]
    exact owner
  rcases row with rfl | ⟨rfl, covered⟩
  · exact ⟨_, rfl, execute_answers now (by simp [isWrite]) answers⟩
  · have form : q.request.writesWords 6 [2, 3] = true := by
      simpa [Request.writesWords, writes, writesTiming] using covered
    exact ⟨_, rfl, execute_answers now form answers⟩

end Sys2Proof.Machine

open Sys2Proof Sys2Proof.Machine

/-- Settles O48: no timing word, a word out of range, a memory neither UNINIT nor HOLD, and the set written. -/
theorem timingSetWriteNeedsUninitOrHold : Obligations.TimingSetWriteNeedsUninitOrHold := by
  intro s i q runs w2 w3 inRange t after
  have inRangeIff : timingInRange q.request = true ↔ inRange := timingInRange_iff q.request
  have afterIs : t.withWords w2 w3 = after := timingSet_withWords t w2 w3
  refine ⟨fun no2 no3 => ?_, fun c row words => ?_⟩
  · have uncovered : ¬ writesTiming q.request = true := by
      rw [writesTiming_iff]
      exact not_or.mpr ⟨not_not.mpr no2, not_not.mpr no3⟩
    exact answersWith_of_writeTiming runs (.inl rfl) (writeTiming_of_uncovered s uncovered)
  · have covered : writesTiming q.request = true := (writesTiming_iff q.request).mpr words
    have row : c = .write ∨ (c = .writeTimingSet ∧ writesTiming q.request = true) := by
      simpa [covered, or_comm] using row
    refine ⟨fun bad => ?_, fun good started awake => ?_, fun good rests => ?_⟩
    · exact answersWith_of_writeTiming runs row (writeTiming_of_badValue s covered fun passed => bad (inRangeIff.mp passed))
    · have refused := writeTiming_of_inRange s covered (inRangeIff.mpr good)
      rw [if_pos ⟨started, awake⟩] at refused
      exact answersWith_of_writeTiming runs row refused
    · have accepted := writeTiming_of_inRange s covered (inRangeIff.mpr good)
      rw [if_neg fun ⟨started, awake⟩ => rests.elim started awake, afterIs] at accepted
      exact answersWith_of_writeTiming runs row accepted
end

section
/-! SUPPORT. NoticeIsBuiltForTheRightClass: which class a notice is built for, and what its frame carries (R131, R136 to R139). -/

namespace Sys2Proof.Machine

/-! ## The class a notice is built for (R131, R136) -/

theorem eligible_iff (u : NoticeUnit) (c : Fin 8) :
    u.eligible c = true ↔ u.pending[c] &&& u.enable[c] ≠ 0 ∧ u.announcedFlag c = false := by
  simp [NoticeUnit.eligible, NoticeUnit.eligibleSources]

theorem expressChoice_eq_some_iff (u : NoticeUnit) (c : Fin 8) :
    u.expressChoice = some c ↔ u.express = some c ∧ u.eligible c = true := by
  unfold NoticeUnit.expressChoice
  cases u.express with
  | none => simp
  | some k =>
    by_cases e : u.eligible k = true
    · simp only [e, if_true, Option.some.injEq]
      exact ⟨fun h => ⟨h, h ▸ e⟩, And.left⟩
    · simp only [e, Option.some.injEq]
      exact ⟨nofun, fun ⟨h, eligible⟩ => absurd (h ▸ eligible) e⟩

theorem expressChoice_eq_none_iff (u : NoticeUnit) :
    u.expressChoice = none ↔ ∀ k, u.express = some k → ¬ u.eligible k = true := by
  simp only [Option.eq_none_iff_forall_ne_some, ne_eq, expressChoice_eq_some_iff, not_and]

/-- With the holdoff timer stopped, the first eligible class of the order list. -/
theorem ordinaryChoice_eq_some_iff (u : NoticeUnit) (c : Fin 8) :
    u.ordinaryChoice = some c ↔ u.timer.running = false ∧
      ∃ before after, u.order.toList = before ++ c :: after ∧ u.eligible c = true ∧ ∀ k ∈ before, ¬ u.eligible k = true := by
  unfold NoticeUnit.ordinaryChoice
  cases u.timer.running with
  | true => simp
  | false =>
    simp only [Bool.false_eq_true, if_false, List.find?_eq_some_iff_append, Bool.not_eq_true', true_and, Bool.not_eq_true]
    exact ⟨fun ⟨eligible, before, after, list, first⟩ => ⟨before, after, list, eligible, first⟩,
      fun ⟨before, after, list, eligible, first⟩ => ⟨eligible, before, after, list, first⟩⟩

theorem ordinaryChoice_of_running {u : NoticeUnit} (h : u.timer.running = true) : u.ordinaryChoice = none :=
  if_pos h

theorem ordinaryChoice_of_ineligible {u : NoticeUnit} (h : ∀ k ∈ u.order.toList, ¬ u.eligible k = true) :
    u.ordinaryChoice = none := by
  unfold NoticeUnit.ordinaryChoice
  split
  · rfl
  · exact List.find?_eq_none.mpr h

/-- R136's conditions and its order of choice. -/
theorem buildChoice_eq_some_iff (u : NoticeUnit) (node : BitVec 6) (c : Fin 8) :
    u.buildChoice node = some c ↔ u.noticeSlot = none ∧ node ≠ Config.broadcastAddress ∧
      (u.expressChoice = some c ∨ u.expressChoice = none ∧ u.ordinaryChoice = some c) := by
  unfold NoticeUnit.buildChoice
  by_cases closed : (u.noticeSlot.isSome || node == Config.broadcastAddress) = true
  · rw [if_pos closed]
    refine iff_of_false nofun fun ⟨slot, addressed, _⟩ => ?_
    simp [slot, addressed] at closed
  · rw [if_neg closed]
    have free : u.noticeSlot = none ∧ node ≠ Config.broadcastAddress := by simpa using closed
    simp only [free.1, free.2, ne_eq, not_false_eq_true, true_and]
    cases u.expressChoice <;> simp

/-- No notice is built when neither choice is to be had. -/
theorem buildChoice_of_noChoice {u : NoticeUnit} (node : BitVec 6) (express : u.expressChoice = none)
    (ordinary : u.ordinaryChoice = none) : u.buildChoice node = none := by
  simp [NoticeUnit.buildChoice, express, ordinary]

/-- An unaddressed part builds no notice (R139). -/
theorem buildChoice_of_broadcast (u : NoticeUnit) : u.buildChoice Config.broadcastAddress = none := by
  simp [NoticeUnit.buildChoice]

theorem built_of_none {u : NoticeUnit} {node : BitVec 6} (t : Micros) (h : u.buildChoice node = none) : u.built node t = u := by
  simp [NoticeUnit.built, h]

theorem built_of_some {u : NoticeUnit} {node : BitVec 6} {c : Fin 8} (t : Micros) (h : u.buildChoice node = some c) :
    u.built node t = { u with noticeSlot := some (u.notice node t c), announced := setAnnounced u.announced c true } := by
  simp [NoticeUnit.built, h]

/-! ## The content of a notice (R137, R138) -/

/-- The lowest source of a set that is not empty is in the set, and none below it is. -/
theorem lowestSource_spec {set : BitVec 32} (h : set ≠ 0) :
    set.getLsbD (lowestSource set).val = true ∧ ∀ k, k < (lowestSource set).val → set.getLsbD k = false := by
  obtain ⟨n, found⟩ : ∃ n, (List.finRange 32).find? (fun n => set.getLsbD n.val) = some n := by
    refine Option.isSome_iff_exists.mp (List.find?_isSome.mpr ?_)
    by_contra absent
    refine h (BitVec.eq_of_getLsbD_eq fun k lt => ?_)
    have clear : ¬ set.getLsbD k = true := fun set => absent ⟨⟨k, lt⟩, List.mem_finRange _, set⟩
    simpa using clear
  have lowest : lowestSource set = n := by rw [lowestSource, found, Option.getD_some]
  obtain ⟨inSet, i, within, at_, first⟩ := List.find?_eq_some_iff_getElem.mp found
  have index : n.val = i := by rw [← at_]; simp
  rw [lowest]
  refine ⟨inSet, fun k below => ?_⟩
  simpa using first k (by omega)

theorem dispatchValue_toNat (base : BitVec 16) (shift c : Fin 8) (lowest : Fin 32) :
    (dispatchValue base shift c lowest).toNat = (base.toNat + (c.val * 32 + lowest.val) * 2 ^ shift.val) % 65536 := by
  simp [dispatchValue]

end Sys2Proof.Machine

open Sys2Proof Sys2Proof.Machine

/-- Settles O36: the choice of R136 names the class, and the notice of R137 and R138 is what the slot then holds. -/
theorem noticeIsBuiltForTheRightClass : Obligations.NoticeIsBuiltForTheRightClass := by
  intro s u eligible
  have eligibleIff : ∀ k, u.eligible k = true ↔ eligible k := eligible_iff u
  have noExpress : (∀ k, u.express = some k → ¬ eligible k) → u.expressChoice = none := fun h =>
    (expressChoice_eq_none_iff u).mpr fun k express chosen => h k express ((eligibleIff k).mp chosen)
  refine ⟨fun c slot addressed choice => ?_,
    fun full => build_of_none (buildChoice_of_full _ (Option.isSome_iff_ne_none.mpr full)),
    fun unaddressed => build_of_none (unaddressed ▸ buildChoice_of_broadcast u), fun express ordinary => ?_⟩
  · have chosen : u.expressChoice = some c ∨ u.expressChoice = none ∧ u.ordinaryChoice = some c := by
      rcases choice with ⟨express, able⟩ | ⟨absent, stopped, before, after, list, able, first⟩
      · exact .inl ((expressChoice_eq_some_iff u c).mpr ⟨express, (eligibleIff c).mpr able⟩)
      · exact .inr ⟨noExpress absent, (ordinaryChoice_eq_some_iff u c).mpr ⟨stopped, before, after, list,
          (eligibleIff c).mpr able, fun k earlier able => first k earlier ((eligibleIff k).mp able)⟩⟩
    have builds : u.buildChoice s.ep.nodeAddress = some c := (buildChoice_eq_some_iff u _ c).mpr ⟨slot, addressed, chosen⟩
    have sources : u.eligibleSources c ≠ 0 := ((eligible_iff u c).mp (eligible_of_buildChoice builds)).1
    obtain ⟨inSet, lowest⟩ := lowestSource_spec sources
    refine ⟨u.notice s.ep.nodeAddress s.micros c, ?_, rfl, rfl, rfl, inSet, lowest, dispatchValue_toNat _ _ _ _, rfl,
      beq_iff_eq⟩
    rw [build_notices, built_of_some _ builds]
  · refine build_of_none (buildChoice_of_noChoice _ (noExpress express) ?_)
    rcases ordinary with running | unlisted
    · exact ordinaryChoice_of_running running
    · exact ordinaryChoice_of_ineligible fun k listed able => unlisted k listed ((eligibleIff k).mp able)
end

section
/-! SUPPORT. NoticeWriteReplacesSetsAndOrder: the order list of a word, and the enable sets and order list that a WRITE to space 5
leaves (R133, R135, R175, R183). -/

namespace Sys2Proof.Machine

/-! ## The order list of a word (R133, 11.4) -/

theorem bits_orderField (w : MgmtWord) (k : Nat) : bits w (4 * k) 4 = w.toNat / 16 ^ k % 16 := by
  simp [bits, Nat.pow_mul]

theorem orderClasses_length (w : MgmtWord) : (orderClasses w).length = 8 := by
  simp [orderClasses]

theorem mem_orderClasses (w : MgmtWord) (c : Nat) : c ∈ orderClasses w ↔ ∃ k : Fin 8, w.toNat / 16 ^ k.val % 16 = c := by
  simp [orderClasses, bits_orderField, Fin.exists_iff]

/-- Eight numbers among which each class stands are the eight classes in some order. -/
theorem perm_range_of_mem {l : List Nat} (length : l.length = 8) (all : ∀ c, c < 8 → c ∈ l) : (List.range 8).Perm l :=
  (List.subperm_of_subset List.nodup_range fun c h => all c (List.mem_range.mp h)).perm_of_length_le (by simp [length])

theorem isPermutation_iff_mem {l : List Nat} (length : l.length = 8) : isPermutation l = true ↔ ∀ c, c < 8 → c ∈ l := by
  simp only [isPermutation, List.all_eq_true, List.mem_range, beq_iff_eq]
  refine ⟨fun once c h => List.count_pos_iff.mp (by rw [once c h]; exact Nat.one_pos), fun all c h => ?_⟩
  rw [← (perm_range_of_mem length all).count_eq c]
  exact List.count_eq_one_of_mem List.nodup_range (List.mem_range.mpr h)

theorem isPermutation_orderClasses_iff (w : MgmtWord) :
    isPermutation (orderClasses w) = true ↔ ∀ c : Fin 8, ∃ k : Fin 8, w.toNat / 16 ^ k.val % 16 = c.val := by
  rw [isPermutation_iff_mem (orderClasses_length w), Fin.forall_iff]
  simp only [mem_orderClasses]

/-- A word that passes the check names classes alone. -/
theorem orderOf_val {w : MgmtWord} (h : isPermutation (orderClasses w) = true) (k : Fin 8) :
    (orderOf w)[k].val = w.toNat / 16 ^ k.val % 16 := by
  have perm := perm_range_of_mem (orderClasses_length w) ((isPermutation_iff_mem (orderClasses_length w)).mp h)
  have named : w.toNat / 16 ^ k.val % 16 < 8 := List.mem_range.mp (perm.mem_iff.mpr ((mem_orderClasses w _).mpr ⟨k, rfl⟩))
  simp only [orderOf, Fin.getElem_fin, Vector.getElem_ofFn, bits_orderField]
  exact Nat.mod_eq_of_lt named

theorem mem_orderOf {w : MgmtWord} (h : isPermutation (orderClasses w) = true) (c : Fin 8) : c ∈ (orderOf w).toList := by
  obtain ⟨k, at_⟩ := (isPermutation_orderClasses_iff w).mp h c
  have same : (orderOf w)[k] = c := Fin.ext ((orderOf_val h k).trans at_)
  rw [Vector.mem_toList_iff, ← same]
  exact Vector.getElem_mem k.isLt

/-! ## The WRITE (R175, R183) -/

/-- Every order list word that the WRITE carries is a permutation. -/
def ordersPass (r : Request) : Prop :=
  ∀ v, r.covered 17 = some v → isPermutation (orderClasses v) = true

theorem writeNotice_of_badValue {r : Request} (s : State) (bad : ¬ ordersPass r) :
    writeNotice r s = (s, .answer .badValue []) := by
  rw [ordersPass, ← wordPasses_iff (r.covered 17) fun w => isPermutation (orderClasses w)] at bad
  simp only [writeNotice, bad, Bool.not_false, if_true, refusedWith]

theorem writeNotice_of_passed {r : Request} (s : State) (passed : ordersPass r) :
    writeNotice r s = (build { s with notices := s.notices.withWords r }, .answer .ok []) := by
  rw [ordersPass, ← wordPasses_iff (r.covered 17) fun w => isPermutation (orderClasses w)] at passed
  simp only [writeNotice, passed, Bool.not_true, Bool.false_eq_true, if_false, acceptedWith]

/-- A WRITE to space 5 is answered as its owner answers, by the row WRITE and by each narrower row whose words it covers. -/
theorem answersWith_of_writeNotice {s u : State} {i : Fin 4} {q : Taken} {status : Status} {c : Instr} (h : s.runsWrite 5 i q)
    (row : c = .write ∨ (c = .writeEnableSet ∧ ∃ k : Fin 8, q.request.covered (8 + k.val) ≠ none) ∨
      (c = .writeOrderList ∧ q.request.covered 17 ≠ none))
    (owner : writeNotice q.request s = (u, .answer status [])) : answersWith c s u i q status [] := by
  obtain ⟨run, space, isWrite⟩ := runWrite_of_runsWrite h
  obtain ⟨now, writes, -⟩ := h
  have answers : runWrite i q.request s = (u, .answer status []) := by
    rw [run, writeOwner, space]
    exact owner
  rcases row with rfl | ⟨rfl, k, covered⟩ | ⟨rfl, covered⟩
  · exact ⟨_, rfl, execute_answers now (by simp [isWrite]) answers⟩
  · have enables : ∀ k : Fin 8, 8 + k.val ∈ [8, 9, 10, 11, 12, 13, 14, 15] := by decide
    have form : q.request.writesWords 5 [8, 9, 10, 11, 12, 13, 14, 15] = true := by
      rw [Request.writesWords, writes, Bool.true_and, List.any_eq_true]
      exact ⟨8 + k.val, enables k, (isSome_covered _ _).mpr covered⟩
    exact ⟨_, rfl, execute_answers now form answers⟩
  · exact ⟨_, rfl, execute_answers now (writesWords_of_covered writes covered) answers⟩

theorem withWords_enable (u : NoticeUnit) (r : Request) (k : Fin 8) :
    (u.withWords r).enable[k] = (r.covered (8 + k.val)).elim u.enable[k] fun v => v &&& classSources k := by
  simp [NoticeUnit.withWords, carried_eq_elim]

theorem withWords_order (u : NoticeUnit) {r : Request} (passed : ordersPass r) (k : Fin 8) :
    (u.withWords r).order[k].val = (r.covered 17).elim u.order[k].val fun v => v.toNat / 16 ^ k.val % 16 := by
  cases carries : r.covered 17 with
  | none => simp [NoticeUnit.withWords, carries, carried]
  | some v => simpa [NoticeUnit.withWords, carries, carried] using orderOf_val (passed v carries) k

end Sys2Proof.Machine

open Sys2Proof Sys2Proof.Machine

/-- Settles O49: the order list word is checked whole, and sets, list and one build are what an accepted WRITE leaves. -/
theorem noticeWriteReplacesSetsAndOrder : Obligations.NoticeWriteReplacesSetsAndOrder := by
  intro s i q runs word badOrder c row
  have passes : ordersPass q.request ↔ ¬ badOrder := by
    simp only [ordersPass, isPermutation_orderClasses_iff, badOrder, word, not_exists, not_and, not_not]
  refine ⟨fun bad => answersWith_of_writeNotice runs row (writeNotice_of_badValue s fun passed => passes.mp passed bad),
    fun good => ?_⟩
  have passed := passes.mpr good
  exact ⟨_, s.notices.withWords q.request, answersWith_of_writeNotice runs row (writeNotice_of_passed s passed),
    withWords_enable s.notices q.request, withWords_order s.notices passed, rfl, build_notices _,
    build_linkFrame { s with notices := s.notices.withWords q.request },
    congrArg (fun t : State => { t with notices := s.notices }) (build_frame { s with notices := s.notices.withWords q.request })⟩
end

section
/-! SUPPORT. AckNoticeTakesTheNamedSources: the class and the sources that an acknowledgement names, and the sets and flags it leaves
(R142, 11.5). -/

namespace Sys2Proof.Machine

/-! ## The argument (R142) -/

theorem bits_classField (a : MgmtWord) : bits a 16 8 = a.toNat / 65536 % 256 := by
  simp [bits]

/-- The group is the word's high octet. -/
theorem bits_groupField (a : MgmtWord) : bits a 24 8 = a.toNat / 16777216 := by
  simp only [bits]
  exact Nat.mod_eq_of_lt (by have := a.isLt; omega)

theorem ackArg_of_outOfRange {a : MgmtWord} (h : 8 ≤ a.toNat / 65536 % 256 ∨ 2 ≤ a.toNat / 16777216) : ackArg a = none := by
  unfold ackArg
  split
  · rename_i known
    rw [bits_classField] at known
    split
    · rename_i low
      rw [bits_groupField] at low
      omega
    · rename_i high
      rw [bits_groupField] at high
      omega
    · rfl
  · rfl

/-- The sources that an acknowledgement names: sixteen of the group's, by the word's low bits. -/
def ackMask (a : MgmtWord) (group : Nat) : BitVec 32 :=
  BitVec.ofNat 32 (bits a 0 16 * 65536 ^ group)

theorem ackArg_of_class {a : MgmtWord} {c : Fin 8} {group : Nat} (cls : c.val = a.toNat / 65536 % 256)
    (high : group = a.toNat / 16777216) (h : group < 2) : ackArg a = some (c, ackMask a group) := by
  have known : bits a 16 8 < 8 := by rw [bits_classField, ← cls]; exact c.isLt
  have same : (⟨bits a 16 8, known⟩ : Fin 8) = c := Fin.ext ((bits_classField a).trans cls.symm)
  have group' : bits a 24 8 = group := (bits_groupField a).trans high.symm
  unfold ackArg
  rw [dif_pos known, group', same]
  match group, h with
  | 0, _ => simp [ackMask]
  | 1, _ => simp [ackMask]

/-- Source n is named when it is of the group and its bit of the low half is set. -/
theorem getLsbD_ackMask (a : MgmtWord) (group : Nat) (n : Fin 32) :
    (ackMask a group).getLsbD n.val = (decide (n.val / 16 = group) && a.getLsbD (n.val % 16)) := by
  have lt := n.isLt
  have shifted : 65536 ^ group = 2 ^ (16 * group) := by rw [Nat.pow_mul]
  rw [ackMask, BitVec.getLsbD_ofNat, shifted, ← Nat.shiftLeft_eq, Nat.testBit_shiftLeft, testBit_bits]
  by_cases own : n.val / 16 = group
  · have place : n.val - 16 * group = n.val % 16 := by omega
    have low : n.val % 16 < 16 := Nat.mod_lt _ (by decide)
    have above : 16 * group ≤ n.val := by omega
    simp [own, place, low, above, lt]
  · have apart : ¬ (16 * group ≤ n.val ∧ n.val - 16 * group < 16) := by omega
    simp only [own, decide_false, Bool.false_and]
    by_cases above : 16 * group ≤ n.val
    · have beyond : ¬ n.val - 16 * group < 16 := fun k => apart ⟨above, k⟩
      simp [beyond]
    · simp [above]

/-! ## The sets and flags after it -/

theorem getLsbD_setAnnounced_off (flags : BitVec 8) (c d : Fin 8) :
    (setAnnounced flags c false).getLsbD d.val = (flags.getLsbD d.val && decide (d ≠ c)) := by
  have bit : ∀ c d : Fin 8, (~~~((1 : BitVec 8) <<< c.val)).getLsbD d.val = decide (d ≠ c) := by decide
  simp only [setAnnounced, Bool.false_eq_true, if_false, BitVec.getLsbD_and, bit]

end Sys2Proof.Machine

open Sys2Proof Sys2Proof.Machine

/-- Settles O56: the argument gives the class and the mask, and the acknowledgement with one build is what the answer leaves. -/
theorem ackNoticeTakesTheNamedSources : Obligations.AckNoticeTakesTheNamedSources := by
  intro s i q runs arg
  have form := asksFor_of_runsCommand runs
  refine ⟨fun bad => ⟨_, rfl, execute_answers runs.1 form (by simp [withArg, ackArg_of_outOfRange bad, refusedWith])⟩,
    fun c group cls high known => ?_⟩
  have takes : withArg ackArg (fun a => ackNotice a.1 a.2) i q.request s =
      (build { s with notices := s.notices.acknowledge c (ackMask q.request.argument group) }, .answer .ok []) := by
    simp only [withArg, ackArg_of_class cls high known, ackNotice, acceptedWith]
  refine ⟨_, _, _, ⟨_, rfl, execute_answers runs.1 form takes⟩, fun n => ?_, getLsbD_setAnnounced_off _ c, build_notices _,
    build_linkFrame { s with notices := s.notices.acknowledge c (ackMask q.request.argument group) },
    congrArg (fun t : State => { t with notices := s.notices })
      (build_frame { s with notices := s.notices.acknowledge c (ackMask q.request.argument group) })⟩
  rw [BitVec.getLsbD_and, BitVec.getLsbD_not, getLsbD_ackMask]
  simp
end

section
/-! SUPPORT. EmptyQueueLetsOneMicrosecondPass, PauseAndHoldoffRunOut: one step of the microsecond counter, and so many of them, on a
port that pauses and on the holdoff timer (R141, R150, R179). -/

namespace Sys2Proof.Machine

/-! ## One microsecond -/

@[simp] theorem tick_micros (s : State) : (tick s).micros = s.micros + 1 := by
  simp [tick]

theorem tick_notices (s : State) :
    (tick s).notices = ({ s.notices with timer := s.notices.timer.step }).built s.ep.nodeAddress (s.micros + 1) :=
  build_notices _

@[simp] theorem tick_port (s : State) (p : Port) : (tick s).port p = (s.port p).pauseStep := by
  cases p <;> simp [tick, State.port]

/-- A port that does not pause is left as it is. -/
theorem pauseStep_of_notPausing {x : PortState} (h : x.pauseLeft = none) : x.pauseStep = x := by
  unfold PortState.pauseLeft at h
  unfold PortState.pauseStep
  split
  · rename_i seek pausing
    simp [seek, pausing] at h
  · rfl

theorem pauseStep_of_last {x : PortState} (seek : x.receiver = .seek) (pausing : x.sweep = .pausing 1) :
    x.pauseStep = x.newSweep := by
  simp [PortState.pauseStep, seek, pausing]

theorem pauseStep_of_more {x : PortState} {n : Nat} (seek : x.receiver = .seek) (pausing : x.sweep = .pausing (n + 2)) :
    x.pauseStep = { x with sweep := .pausing (n + 1) } := by
  simp [PortState.pauseStep, seek, pausing]

/-! ## So many microseconds -/

theorem micros_succ (t : Micros) (n : Nat) : t + 1 + BitVec.ofNat 32 n = t + BitVec.ofNat 32 (n + 1) := by
  rw [BitVec.add_assoc, Nat.add_comm n 1, BitVec.ofNat_add]
  rfl

theorem ticks_micros (n : Nat) (s : State) : (ticks n s).micros = s.micros + BitVec.ofNat 32 n := by
  induction n generalizing s with
  | zero => simp [ticks]
  | succ n ih => rw [ticks, ih, tick_micros, micros_succ]

theorem ticks_frame (n : Nat) (s : State) :
    { ticks n s with micros := s.micros, notices := s.notices, uPort := s.uPort, dPort := s.dPort, link := s.link } = s := by
  apply State.ext_fields <;> simp

/-- As many microseconds as are left of a pause end it with a new sweep (R150). -/
theorem ticks_endPause (n : Nat) {s : State} {p : Port} (seek : (s.port p).receiver = .seek)
    (pausing : (s.port p).sweep = .pausing (n + 1)) : (ticks (n + 1) s).port p = (s.port p).newSweep := by
  induction n generalizing s with
  | zero => rw [ticks, ticks, tick_port, pauseStep_of_last seek pausing]
  | succ n ih =>
    have step : (tick s).port p = { s.port p with sweep := .pausing (n + 1) } := by
      rw [tick_port, pauseStep_of_more seek pausing]
    rw [ticks, ih (by rw [step]; exact seek) (by rw [step]), step]
    rfl

/-! ## The holdoff timer (R141) -/

/-- While the timer runs, how much is left of it makes no difference to what R136 would build. -/
theorem buildChoice_withRemaining (u : NoticeUnit) (node : BitVec 6) (left more : Nat) :
    ({ u with timer := ⟨true, left⟩ } : NoticeUnit).buildChoice node =
      ({ u with timer := ⟨true, more⟩ } : NoticeUnit).buildChoice node := rfl

/-- As many microseconds as are left of the holdoff time stop the timer, and the last of them lets a notice be built (R141). -/
theorem ticks_endHoldoff (n : Nat) {s : State} (runs : s.notices.timer = ⟨true, n + 1⟩) (settled : s.noticeBuilt) :
    (ticks (n + 1) s).notices =
      ({ s.notices with timer := ⟨false, 0⟩ }).built s.ep.nodeAddress (s.micros + BitVec.ofNat 32 (n + 1)) := by
  induction n generalizing s with
  | zero =>
    rw [ticks, ticks, tick_notices, runs]
    rfl
  | succ n ih =>
    have kept : ({ s.notices with timer := ⟨true, n + 1⟩ } : NoticeUnit).buildChoice s.ep.nodeAddress = none := by
      rw [buildChoice_withRemaining s.notices s.ep.nodeAddress (n + 1) (n + 2), ← runs]
      exact settled
    have step : (tick s).notices = { s.notices with timer := ⟨true, n + 1⟩ } := by
      rw [tick_notices, runs]
      exact built_of_none _ kept
    have ep : (tick s).ep = s.ep := by simp
    have unbuilt : (tick s).noticeBuilt := by
      rw [State.noticeBuilt, step, ep]
      exact kept
    rw [ticks, ih (by rw [step]) unbuilt, step, ep, tick_micros, micros_succ]

end Sys2Proof.Machine

open Sys2Proof Sys2Proof.Machine

/-- Settles O2: the step of an empty queue is one step of the microsecond counter. -/
theorem emptyQueueLetsOneMicrosecondPass : Obligations.EmptyQueueLetsOneMicrosecondPass := by
  intro s empty
  refine ⟨tick s, step_of_empty empty, tick_micros s, ?_, ?_, tick_frame s, fun p rests => ?_⟩
  · simp [tick_notices]
  · simp [tick_notices]
  · rw [tick_port, pauseStep_of_notPausing rests]

/-- Settles O19: the microseconds left pass one by one, and the last of them ends the pause or stops the timer. -/
theorem pauseAndHoldoffRunOut : Obligations.PauseAndHoldoffRunOut := by
  refine ⟨fun s p left seek pausing least => ?_, fun s left runs least settled => ?_⟩
  all_goals obtain ⟨n, rfl⟩ := Nat.exists_eq_add_of_le' least
  · have paused : (s.port p).pauseLeft = some (n + 1) := by simp [PortState.pauseLeft, seek, pausing]
    refine ⟨ticks (n + 1) s, ?_, ?_, ticks_micros _ s, ticks_frame _ s⟩
    · simp [exec, execPauseEnd, paused]
    · rw [ticks_endPause n seek pausing, PortState.newSweep, ← seek]
  · refine ⟨ticks (n + 1) s, ?_, ticks_micros _ s, ?_, ticks_frame _ s⟩
    · simp [exec, execHoldoffExpiry, runs]
    · rw [ticks_endHoldoff n runs settled, ticks_micros]
end

section
/-! SUPPORT. SentFrameFreesItsHolder: the holder freed, and the next choice of each transmitter (R140, R141, R159 to R162, R169,
R170). -/

namespace Sys2Proof.Machine

/-! ## The next choice (R160, R162) -/

/-- At an idle transmitter whose receiver is UP, what is being sent after a build and a decision point is the arbiter's choice,
the notice built being a candidate of it. -/
theorem dChoose_build_sends {s : State} (up : s.dPort.receiver = .up) (idle : s.link.dSending = none) :
    (dChoose (build s)).link.dSending = (dChoose (build s)).dCandidate := by
  cases sending : (build s).link.dSending with
  | none => rw [dCandidate_dChoose, dChoose_of_idle (by simpa using up) sending]
  | some x =>
    have goesOn : dChoose (build s) = build s := dChoose_of_sending (by rw [sending]; exact nofun)
    cases choice : s.notices.buildChoice s.ep.nodeAddress with
    | none =>
      rw [build_of_none choice, idle] at sending
      cases sending
    | some c =>
      rw [goesOn, build_of_some choice, dCandidate_dChoose, dChoose_of_idle (by exact up) (by exact idle)]

/-- At a port that is not UP nothing is begun. -/
theorem dChoose_build_idle {s : State} (down : s.dPort.receiver ≠ .up) (idle : s.link.dSending = none) :
    (dChoose (build s)).link.dSending = none := by
  rw [dChoose_of_down (by simpa using down)]
  cases choice : s.notices.buildChoice s.ep.nodeAddress with
  | none => rw [build_of_none choice, idle]
  | some c =>
    rw [build_of_some choice, dChoose_of_down (by exact down)]
    exact idle

theorem uChoose_sends {s : State} (idle : s.link.uSending = none) :
    (uChoose s).link.uSending = if s.uPort.receiver = .up then s.link.d2u.head? else none := by
  unfold uChoose
  by_cases up : s.uPort.receiver = .up
  · simp [up, idle]
  · simp [up, idle]

/-! ## What a freed holder leaves (R140, R159, R169, R170) -/

theorem freeHolder_u2d (x : DHolder) (s : State) :
    (freeHolder x s).link.u2d = if x = .forward then s.link.u2d.tail else s.link.u2d := by
  cases x <;> rfl

theorem freeHolder_notices (x : DHolder) (s : State) :
    (freeHolder x s).notices =
      if x = .notice then { s.notices with noticeSlot := none, timer := startedTimer s.notices.holdoff } else s.notices := by
  cases x <;> rfl

theorem freeHolder_nodeAddress (x : DHolder) (s : State) : (freeHolder x s).ep.nodeAddress = s.ep.nodeAddress := by
  cases x <;> rfl

/-- D_FRAME_SENT with a frame being sent. -/
def State.dSent (s : State) (x : DSending) : State :=
  dChoose (build (clearDOut (freeHolder x.holder s)))

theorem exec_dFrameSent {s : State} {x : DSending} (sending : s.link.dSending = some x) :
    exec .dFrameSent s = .next (s.dSent x) := by
  simp [exec, execDFrameSent, sending, State.dSent]

theorem dSent_ep (s : State) (x : DSending) : (s.dSent x).ep = (freeHolder x.holder s).ep := by
  simp [State.dSent]

theorem dSent_notices (s : State) (x : DSending) :
    (s.dSent x).notices = (freeHolder x.holder s).notices.built s.ep.nodeAddress s.micros := by
  simp [State.dSent, build_notices, freeHolder_nodeAddress]

theorem dSent_link (s : State) (x : DSending) :
    (s.dSent x).link.u2d = (freeHolder x.holder s).link.u2d ∧ (s.dSent x).link.d2u = (freeHolder x.holder s).link.d2u ∧
      (s.dSent x).link.uSending = (freeHolder x.holder s).link.uSending := by
  simp [State.dSent, clearDOut]

theorem dSent_frame (s : State) (x : DSending) : { s.dSent x with notices := s.notices, link := s.link, ep := s.ep } = s := by
  apply State.ext_fields <;> simp [State.dSent]

end Sys2Proof.Machine

open Sys2Proof Sys2Proof.Machine

/-- Settles O60: the holder's own lemmas at D-out, the queue's head at U-out, and one decision point after each. -/
theorem sentFrameFreesItsHolder : Obligations.SentFrameFreesItsHolder := by
  constructor
  · intro s x sending u timer
    obtain ⟨u2d, d2u, uSending⟩ := dSent_link s x
    obtain ⟨-, d2uKept, uSendingKept⟩ := freeHolder_link x.holder s
    refine ⟨s.dSent x, exec_dFrameSent sending, fun up => dChoose_build_sends (by simpa using up) rfl,
      fun down => dChoose_build_idle (by simpa using down) rfl, d2u.trans d2uKept, uSending.trans uSendingKept,
      u2d.trans (freeHolder_u2d _ s), ?_, fun busy => ?_, fun k own => ?_, fun other => ?_, dSent_frame s x⟩
    · rw [dSent_notices, freeHolder_notices]
      rfl
    · rw [dSent_ep, busy]
      rfl
    · have ep : (s.dSent x).ep = (s.setContext k .free).ep := by rw [dSent_ep, own]; rfl
      exact ⟨(context_congr ep k).trans (context_setContext s k .free),
        fun j n => (context_congr ep j).trans (context_setContext_ne s .free n), by rw [ep]; rfl⟩
    · rw [dSent_ep]
      rcases other with own | own <;> rw [own] <;> rfl
  · intro s f sending
    refine ⟨uChoose (clearUOut s), by simp [exec, execUFrameSent, sending], by simp [clearUOut], uChoose_sends rfl,
      by simp [clearUOut], by simp [clearUOut], ?_⟩
    apply State.ext_fields <;> simp
end

section
/-! SUPPORT. PowerOnClearsTheNoticeUnit: the notice unit's values after power-on reset (R133, R134, R145). -/

open Sys2Proof Sys2Proof.Machine

/-- Settles O5: the reset values, class by class. -/
theorem powerOnClearsTheNoticeUnit : Obligations.PowerOnClearsTheNoticeUnit := by
  intro straps s
  have alert : NoticeUnit.reset.alert = false := by decide
  have clear : ∀ c : Fin 8, NoticeUnit.reset.pending[c] = 0 ∧ NoticeUnit.reset.enable[c] = 0 ∧
      NoticeUnit.reset.announcedFlag c = false := by decide
  exact ⟨_, rfl, clear, rfl, rfl, rfl, rfl, rfl, rfl, rfl, alert, rfl⟩
end

section
/-! SUPPORT. StepKeepsTheNoticeUnit: the notice unit's own agreement through each of its operations, every build, and so through every
operation that raises a source and every command (R130, R132, R133, R136, R137, R139 to R142, R146). -/

namespace Sys2Proof.Machine

/-! ## Sources within a class (R130) -/

/-- The set holds only sources that the class has. -/
def withinClass (c : Fin 8) (set : BitVec 32) : Prop :=
  set &&& ~~~classSources c = 0

theorem withinClass_iff (c : Fin 8) (set : BitVec 32) :
    withinClass c set ↔ ∀ k, set.getLsbD k = true → (classSources c).getLsbD k = true := by
  refine ⟨fun h k inSet => ?_, fun h => BitVec.eq_of_getLsbD_eq fun k lt => ?_⟩
  · have bit := congrArg (BitVec.getLsbD · k) h
    simpa [inSet, BitVec.lt_of_getLsbD inSet] using bit
  · cases inSet : set.getLsbD k with
    | false => simp [inSet]
    | true => simp [h k inSet]

theorem withinClass.and {c : Fin 8} {set : BitVec 32} (h : withinClass c set) (other : BitVec 32) :
    withinClass c (set &&& other) := by
  rw [withinClass_iff] at h ⊢
  intro k both
  rw [BitVec.getLsbD_and, Bool.and_eq_true] at both
  exact h k both.1

theorem withinClass.or {c : Fin 8} {set other : BitVec 32} (h : withinClass c set) (h' : withinClass c other) :
    withinClass c (set ||| other) := by
  rw [withinClass_iff] at h h' ⊢
  intro k either
  rw [BitVec.getLsbD_or, Bool.or_eq_true] at either
  exact either.elim (h k) (h' k)

theorem withinClass_masked (c : Fin 8) (set : BitVec 32) : withinClass c (set &&& classSources c) := by
  rw [withinClass_iff]
  intro k both
  rw [BitVec.getLsbD_and, Bool.and_eq_true] at both
  exact both.2

theorem withinClass_zero (c : Fin 8) : withinClass c 0 := by
  simp [withinClass]

/-- A set put in the place of one class is read at that class alone. -/
theorem withinClass_set {sets : Vector (BitVec 32) 8} (h : ∀ c : Fin 8, withinClass c sets[c]) {c : Fin 8} {set : BitVec 32}
    (new : withinClass c set) (d : Fin 8) : withinClass d (sets.set c set)[d] := by
  rw [Fin.getElem_fin, Vector.getElem_set]
  split
  · rename_i same
    exact Fin.ext same ▸ new
  · exact h d

/-! ## The unit's own agreement (R130, R133, R137, R139, R141) -/

/-- State.noticesAgree, said of the notice unit of a part with this address. -/
structure NoticeUnit.agrees (u : NoticeUnit) (node : BitVec 6) : Prop where
  pending : ∀ c : Fin 8, withinClass c u.pending[c]
  enable : ∀ c : Fin 8, withinClass c u.enable[c]
  order : ∀ c : Fin 8, c ∈ u.order.toList
  timer : u.timer.running = true ↔ u.timer.remaining ≠ 0
  slot : ∀ n, u.noticeSlot = some n → n.agrees node

theorem noticesAgree_iff (s : State) : s.noticesAgree ↔ s.notices.agrees s.ep.nodeAddress := by
  constructor
  · rintro ⟨sets, order, timer, slot⟩
    exact ⟨fun c => (sets c).1, fun c => (sets c).2, order, timer, slot⟩
  · rintro ⟨pending, enable, order, timer, slot⟩
    exact ⟨fun c => ⟨pending c, enable c⟩, order, timer, slot⟩

section
variable {u : NoticeUnit} {node : BitVec 6}

/-- A notice built names sources of its class that are pending and enabled, the lowest of them first (R136, R137). -/
theorem NoticeUnit.agrees.built (a : u.agrees node) (t : Micros) : (u.built node t).agrees node := by
  cases choice : u.buildChoice node with
  | none => rwa [built_of_none t choice]
  | some c =>
    rw [built_of_some t choice]
    obtain ⟨-, addressed, -⟩ := (buildChoice_eq_some_iff u node c).mp choice
    have sources : u.eligibleSources c ≠ 0 := ((eligible_iff u c).mp (eligible_of_buildChoice choice)).1
    refine { a with slot := fun n full => ?_ }
    cases full
    exact ⟨rfl, addressed, (lowestSource_spec sources).1, (a.pending c).and _⟩

theorem NoticeUnit.agrees.raised (a : u.agrees node) (c : Fin 8) (n : Fin 32) : (u.withPending c n).agrees node :=
  { a with pending := withinClass_set a.pending ((a.pending c).or (withinClass_masked c (sourceBit n))) }

theorem NoticeUnit.agrees.acknowledged (a : u.agrees node) (c : Fin 8) (mask : BitVec 32) : (u.acknowledge c mask).agrees node :=
  { a with pending := withinClass_set a.pending ((a.pending c).and _) }

theorem NoticeUnit.agrees.ticked (a : u.agrees node) : ({ u with timer := u.timer.step } : NoticeUnit).agrees node := by
  refine { a with timer := ?_ }
  have timer := a.timer
  dsimp only
  unfold HoldoffTimer.step
  split
  · split
    · simp
    · simp only [ne_eq, true_iff]
      omega
  · exact timer

/-- A notice leaves and the holdoff timer starts (R140). -/
theorem NoticeUnit.agrees.sent (a : u.agrees node) :
    ({ u with noticeSlot := none, timer := startedTimer u.holdoff } : NoticeUnit).agrees node := by
  refine { a with timer := ?_, slot := nofun }
  dsimp only
  unfold startedTimer
  split
  · simp
  · rename_i loaded
    simpa using fun zero => loaded (BitVec.eq_of_toNat_eq zero)

theorem NoticeUnit.agrees.withSettings (a : u.agrees node) (r : Request) : (u.withSettings r).agrees node :=
  ⟨a.pending, a.enable, a.order, a.timer, a.slot⟩

/-- The sets written hold sources of their class, and the list written is a permutation (R133, R135, R183). -/
theorem NoticeUnit.agrees.withWords (a : u.agrees node) {r : Request} (passed : ordersPass r) : (u.withWords r).agrees node := by
  refine { a with enable := fun c => ?_, order := fun c => ?_ }
  · rw [withWords_enable]
    cases r.covered (8 + c.val) with
    | none => exact a.enable c
    | some v => exact withinClass_masked c v
  · unfold NoticeUnit.withWords
    cases carries : r.covered 17 with
    | none => exact a.order c
    | some v => exact mem_orderOf (passed v carries) c

/-- RESET-CAPTURE empties sets and puts no frame into the notice slot (R146). -/
theorem NoticeUnit.agrees.reset (a : u.agrees node) (sending : Bool) : (u.resetCapture sending).agrees node := by
  refine { a with pending := fun c => ?_, slot := fun n full => a.slot n ?_ }
  · rw [resetCapture_pending]
    split
    · exact withinClass_zero c
    · exact a.pending c
  · unfold NoticeUnit.resetCapture at full
    dsimp only at full
    split at full
    · rename_i held
      split at full
      · cases full
      · exact held.trans full
    · cases full

end

/-! ## Builds and raised sources (R132, R136) -/

/-- The notice unit agrees and no notice waits to be built. -/
def State.noticesSettled (s : State) : Prop :=
  s.noticesAgree ∧ s.noticeBuilt

/-- An operation that touches neither the notice unit nor the node address. -/
theorem State.noticesSettled.of_eq {s t : State} (h : s.noticesSettled)
    (same : t.notices = s.notices ∧ t.ep.nodeAddress = s.ep.nodeAddress) : t.noticesSettled := by
  obtain ⟨notices, node⟩ := same
  simpa only [State.noticesSettled, State.noticesAgree, State.noticeBuilt, notices, node] using h

/-- A build settles a notice unit that agrees, whatever was left unbuilt. -/
theorem build_settles {s : State} (a : s.notices.agrees s.ep.nodeAddress) : (build s).noticesSettled := by
  refine ⟨(noticesAgree_iff _).mpr ?_, build_settled s⟩
  have ep : (build s).ep = s.ep := by simp
  rw [build_notices, ep]
  exact a.built s.micros

theorem State.noticesSettled.agrees {s : State} (h : s.noticesSettled) : s.notices.agrees s.ep.nodeAddress :=
  (noticesAgree_iff s).mp h.1

theorem State.noticesSettled.raised {s : State} (h : s.noticesSettled) {c : Fin 8} {n : Fin 32} : (raise c n s).noticesSettled :=
  build_settles (s := { s with notices := s.notices.withPending c n }) (h.agrees.raised c n)

/-- A source raised after an operation that touches neither the notice unit nor the node address. -/
theorem State.noticesSettled.raisedAfter {s t : State} (h : s.noticesSettled) {c : Fin 8} {n : Fin 32}
    (same : t.notices = s.notices ∧ t.ep.nodeAddress = s.ep.nodeAddress) : (raise c n t).noticesSettled :=
  (h.of_eq same).raised

/-- A read's end changes its context alone of the endpoint (R114, R171). -/
theorem endRead_nodeAddress (r : FetchRead) (rest : List FetchRead) (s : State) :
    (endRead r rest s).ep.nodeAddress = s.ep.nodeAddress := by
  simp only [endRead, freePort_keeps]
  unfold answerRead
  split <;> simp [State.setContext]

section
variable {s : State} (h : s.noticesSettled)
include h

/-! ## Halves and completion (R71 to R74, R83, R84) -/

theorem reclaim_settled (i : Fin 8) (k : Half) : (reclaim i k s).noticesSettled :=
  h.raisedAfter (by simp)

theorem armReclaim_settled (i : Fin 8) (k : Half) : (armReclaim i k s).noticesSettled :=
  h.raisedAfter (by simp)

theorem listFull_settled (i : Fin 8) (k : Half) : (listFull i k s).noticesSettled :=
  h.raisedAfter (by simp)

theorem halfFull_settled (i : Fin 8) (k : Half) : (halfFull i k s).noticesSettled := by
  unfold halfFull
  split
  · exact reclaim_settled (listFull_settled h i k) i k
  · exact listFull_settled h i k

theorem sealIfWritten_settled (i : Fin 8) (k : Half) : (sealIfWritten i k s).noticesSettled := by
  unfold sealIfWritten
  split
  · exact halfFull_settled h i k
  · exact h

theorem sealAtEnd_settled (i : Fin 8) (k : Half) : (sealAtEnd i k s).noticesSettled := by
  unfold sealAtEnd
  split
  · exact halfFull_settled h i k
  · exact h

theorem nextHalf_settled (i : Fin 8) (k : Half) : (nextHalf i k s).noticesSettled := by
  unfold nextHalf
  split
  case h_2 => exact reclaim_settled h i k
  all_goals exact h.of_eq (by simp)

theorem complete_settled (i : Fin 8) (k : Half) : (complete i k s).noticesSettled :=
  nextHalf_settled (h.of_eq (by simp)) i k.other

theorem truncate_settled (i : Fin 8) (k : Half) : (truncate i k s).noticesSettled :=
  sealIfWritten_settled (h.of_eq (by simp)) i k

/-! ## Samples and triggers (R31, R61, R62, R64, R67) -/

theorem afterPost_settled (i : Fin 8) (k : Half) : (afterPost i k s).noticesSettled := by
  unfold afterPost
  split
  · exact complete_settled h i k
  · split
    · exact h.raisedAfter (by simp)
    · exact h

theorem storeSample_settled (i : Fin 8) (k : Half) (v : Sample) (t : Tick) : (storeSample i k v t s).noticesSettled := by
  unfold storeSample
  dsimp only
  split
  · exact afterPost_settled (h.of_eq (by simp)) i k
  · exact h.of_eq (by simp)

theorem slotSample_settled (i : Fin 8) (v : Sample) (t : Tick) : (slotSample i v t s).noticesSettled := by
  have receives : ∀ k,
      (if Config.queueCapacity ≤ s.queue.length then loseSample i k s else storeSample i k v t s).noticesSettled := fun k => by
    split
    · exact h.raisedAfter (by simp)
    · exact storeSample_settled h i k v t
  unfold slotSample
  split
  · exact receives _
  · exact receives _
  all_goals exact h

theorem trigger_settled (i : Fin 8) (source : Nat) (t : Tick) : (trigger i source t s).1.noticesSettled := by
  unfold trigger
  split
  · exact h
  · exact h.raised
  all_goals
    split
    · exact h.of_eq (by simp)
    · exact h

theorem fireWatch_settled (w : Fin 32) (t : Tick) : (fireWatch w t s).noticesSettled := by
  have asked : (requestTrigger w t s).1.noticesSettled := by
    unfold requestTrigger
    split
    · exact trigger_settled h _ _ _
    · exact h
  simp only [fireWatch]
  exact asked.raisedAfter (by simp)

theorem watchSample_settled (w : Fin 32) (v : Sample) (t : Tick) : (watchSample w v t s).noticesSettled := by
  have moved : (s.setWatch w ((s.watch w).onSample v t).1).noticesSettled := h.of_eq (by simp)
  unfold watchSample
  dsimp only
  split
  · exact fireWatch_settled moved w t
  · exact moved

theorem takeTurn_settled : (takeTurn s).noticesSettled := by
  have moved : ∀ x : Option Handing, State.noticesSettled { s with handing := x } := fun _ => h.of_eq ⟨rfl, rfl⟩
  unfold takeTurn
  split
  · exact h
  · split
    · exact moved none
    · split
      · unfold handToWatch
        split
        · exact watchSample_settled (moved _) _ _ _
        · exact moved _
      · unfold handToSlot
        split
        · exact slotSample_settled (moved _) _ _ _
        · exact moved _

omit h in
theorem takeTurns_settled (n : Nat) (s : State) (h : s.noticesSettled) : (takeTurns n s).noticesSettled := by
  induction n generalizing s with
  | zero => exact h
  | succ n ih => exact ih _ (takeTurn_settled h)

theorem finishHanding_settled : (finishHanding s).noticesSettled := by
  unfold finishHanding
  split
  · exact h
  · exact (takeTurns_settled _ s h).of_eq ⟨rfl, rfl⟩

/-! ## The link (R150 to R152, R155, R157 to R159) -/

theorem seekSymbol_settled (p : Port) (y : Symbol) : (seekSymbol p y s).noticesSettled := by
  have fails : ∀ x, (failSweep p x s).noticesSettled := fun x => by
    unfold failSweep
    dsimp only
    split
    · split
      · exact h.raisedAfter (by simp)
      · exact h.of_eq (by simp)
    · exact h.of_eq (by simp)
  have judges : ∀ x, (judgeTap p x s).noticesSettled := fun x => by
    unfold judgeTap
    dsimp only
    split
    · exact h.of_eq (by simp)
    · split
      · exact h.of_eq (by simp)
      · exact fails _
  unfold seekSymbol
  dsimp only
  split
  · exact h
  · split
    · exact h.of_eq (by simp)
    · exact judges _

theorem lockedSymbol_settled (p : Port) (y : Symbol) : (lockedSymbol p y s).noticesSettled := by
  unfold lockedSymbol
  dsimp only
  split
  · exact h.raisedAfter (by simp)
  · split <;> exact h.of_eq (by simp)

theorem forwardU2D_settled (f : Frame) : (forwardU2D f s).noticesSettled := by
  unfold forwardU2D
  split
  · exact h.of_eq (by simp)
  · exact h.raised

theorem forwardD2U_settled (f : Frame) : (forwardD2U f s).noticesSettled := by
  unfold forwardD2U
  split
  · exact h.of_eq (by simp)
  · exact h.raised

theorem routeU_settled (f : Frame) : (routeU f s).noticesSettled := by
  unfold routeU
  dsimp only
  split
  · exact (forwardU2D_settled h f).of_eq (by simp)
  · exact forwardU2D_settled h f

/-- Of all that becomes of a request, a check failure alone raises a source (R166). -/
theorem takeRequest_settled (r : Request) : (takeRequest r s).noticesSettled := by
  have accepts : ∀ i, (acceptRequest i r s).noticesSettled := fun i => h.of_eq ⟨rfl, rfl⟩
  have fails : (checkFailure r s).noticesSettled := h.raisedAfter ⟨rfl, rfl⟩
  have refuses : (refuseRequest r s).noticesSettled := by
    unfold refuseRequest
    split
    · exact h.of_eq (by simp)
    · exact h
  unfold takeRequest
  split
  · exact fails
  · split
    · split
      · split
        · exact accepts _
        · exact h
      · exact h
    · split
      · exact accepts _
      · exact refuses

theorem routeD_settled (f : Frame) : (routeD f s).noticesSettled := by
  have taken : (if takenByEndpoint s.ep.nodeAddress f then takeRequest (Request.ofFrame f) s else s).noticesSettled := by
    split
    · exact takeRequest_settled h _
    · exact h
  unfold routeD
  dsimp only
  split
  · exact forwardD2U_settled taken f
  · exact taken

theorem frameEnd_settled (p : Port) (f : RxFrame) : (frameEnd p f s).noticesSettled := by
  have closed : (s.setPort p { s.port p with frame := none }).noticesSettled := h.of_eq (by simp)
  unfold frameEnd
  dsimp only
  split
  · exact closed
  · cases p with
    | u => exact routeU_settled closed f.octets
    | d => exact routeD_settled closed f.octets

theorem frameOctet_settled (p : Port) (o : Octet) (f : RxFrame) : (frameOctet p o f s).noticesSettled := by
  unfold frameOctet
  split
  · exact h
  · split
    · exact h.of_eq (by simp)
    · exact h.raisedAfter (by simp)

theorem assemble_settled (p : Port) (y : Symbol) : (assemble p y s).noticesSettled := by
  unfold assemble
  split
  case h_2 o f _ => exact frameOctet_settled h p o f
  case h_4 f _ => exact frameEnd_settled h p f
  all_goals exact h.of_eq (by simp)

theorem upSymbol_settled (p : Port) (y : Symbol) : (upSymbol p y s).noticesSettled := by
  unfold upSymbol
  dsimp only
  split
  · exact h.raisedAfter (by simp)
  · exact assemble_settled (h.of_eq (by simp)) p y

theorem receiveSymbol_settled (p : Port) (y : Symbol) : (receiveSymbol p y s).noticesSettled := by
  have earlier : (settleEarlier p y s).noticesSettled := by
    unfold settleEarlier
    split
    · exact finishHanding_settled h
    · exact h
  unfold receiveSymbol
  split
  · exact seekSymbol_settled h p y
  · exact lockedSymbol_settled h p y
  · exact upSymbol_settled earlier p y
  · exact h

/-! ## The microsecond step and ends of operations (R83, R102, R120, R140, R141) -/

theorem tick_settled : (tick s).noticesSettled :=
  build_settles h.agrees.ticked

omit h in
theorem ticks_settled (n : Nat) (s : State) (h : s.noticesSettled) : (ticks n s).noticesSettled := by
  induction n generalizing s with
  | zero => exact h
  | succ n ih => exact ih _ (tick_settled h)

theorem endBurst_settled (entries : List QueueEntry) : (endBurst entries s).noticesSettled := by
  have written : (burstWritten entries s).noticesSettled := h.of_eq ⟨rfl, rfl⟩
  unfold endBurst
  dsimp only
  split
  · exact written.of_eq (by simp)
  · rename_i e rest
    exact (sealAtEnd_settled written e.slot e.half).of_eq (by simp)

/-- The holder is freed before the build, which settles what a notice leaving allows (R140). -/
theorem dSent_settled (x : DSending) : (s.dSent x).noticesSettled := by
  have freed : (freeHolder x.holder s).notices.agrees s.ep.nodeAddress := by
    rw [freeHolder_notices]
    split
    · exact h.agrees.sent
    · exact h.agrees
  have sent : (build (clearDOut (freeHolder x.holder s))).noticesSettled := by
    refine build_settles ?_
    rw [show (clearDOut (freeHolder x.holder s)).ep.nodeAddress = s.ep.nodeAddress from freeHolder_nodeAddress _ s]
    exact freed
  exact sent.of_eq (by simp [State.dSent])

/-! ## Owners of requests (R133 to R135, R142, R146, R163) -/

theorem writeControl_settled (r : Request) : (writeControl r s).1.noticesSettled := by
  have counted : (writeCountSettings r (writeMode r s)).noticesSettled := by
    rw [writeCountSettings_eq]
    exact h.of_eq (by simp)
  unfold writeControl
  split
  · exact h
  · exact build_settles (counted.agrees.withSettings r)

theorem writeNotice_settled (r : Request) : (writeNotice r s).1.noticesSettled := by
  by_cases passed : ordersPass r
  · rw [writeNotice_of_passed s passed]
    exact build_settles (h.agrees.withWords passed)
  · rwa [writeNotice_of_badValue s passed]

/-- Of all owners of a WRITE, CONTROL and NOTICE alone reach the notice unit. -/
theorem runWrite_settled (i : Fin 4) (r : Request) : (runWrite i r s).1.noticesSettled := by
  unfold runWrite
  split
  · exact h
  · unfold writeOwner
    split
    case h_1 => exact writeControl_settled h r
    case h_5 => exact writeNotice_settled h r
    case h_7 => exact h
    all_goals refine h.of_eq ?_
    · unfold writeMap
      (repeat' split) <;> simp [acceptedWith, refusedWith]
    · unfold writeWatches
      (repeat' split) <;> simp [acceptedWith, refusedWith]
    · unfold writeSlots
      (repeat' split) <;> simp [acceptedWith, refusedWith]
    · unfold writeTiming
      (repeat' split) <;> simp [acceptedWith, refusedWith]

theorem armSlot_settled (i : Fin 8) : (armSlot i s).1.noticesSettled := by
  unfold armSlot
  split
  · exact h
  · have withdrawn : (withdrawHold s).noticesSettled := h.of_eq ⟨rfl, rfl⟩
    unfold armTakes acceptedWith
    (repeat' split)
    case h_1 => exact armReclaim_settled withdrawn _ _
    all_goals exact withdrawn.of_eq (by simp)

theorem disarmSlot_settled (i : Fin 8) : (disarmSlot i s).1.noticesSettled := by
  unfold disarmSlot
  split
  case h_3 => exact truncate_settled h i _
  all_goals exact h.of_eq (by simp [acceptedWith, refusedWith])

theorem releaseHalf_settled (i : Fin 8) (k : Half) : (releaseHalf i k s).1.noticesSettled := by
  unfold releaseHalf releaseFull
  (repeat' split) <;> exact h.of_eq (by simp [acceptedWith, refusedWith])

theorem memHold_settled : (memHold s).1.noticesSettled := by
  unfold memHold
  (repeat' split) <;> exact h.of_eq (by simp [acceptedWith, refusedWith])

theorem resetCapture_settled : (resetCapture s).1.noticesSettled := by
  obtain ⟨-, -, -, -, notices⟩ := clearAndMark_tables s
  have ep : (clearAndMark s).ep = s.ep := by simp
  rw [resetCapture_eq]
  refine build_settles ?_
  rw [notices, ep]
  exact h.agrees.reset s.sendingNotice

theorem realign_settled (p : Port) : (realign p s).1.noticesSettled := by
  have realigned : (s.setPort p (s.port p).realigned).noticesSettled := h.of_eq (by simp)
  unfold realign acceptedWith
  dsimp only
  split
  · exact realigned.raised
  · exact realigned

/-! ## Every command -/

/-- The frame around an execution leaves the notice unit what the owner left it. -/
theorem execute_settled (form : Request → Bool) (run : Execution) (owner : ∀ i r, (run i r s).1.noticesSettled) :
    (execute form run s).noticesSettled := by
  have settles : ∀ i q reply (u : State), u.noticesSettled → (settle i q reply u).noticesSettled := fun i q reply u left => by
    refine left.of_eq ⟨by simp, ?_⟩
    cases reply with
    | answer => simp [settle, State.setContext]
    | placed => simp [settle, State.setContext]
  rcases execute_cases form run s with same | ⟨i, q, -, -, ⟨status, e⟩ | ⟨-, e⟩⟩
  · rwa [same]
  · rw [e]
    exact settles i q _ s h
  · rw [e]
    exact settles i q _ _ (owner i q.request)

/-- A COMMAND row with an argument. -/
theorem executeArg_settled {α : Type} (form : Request → Bool) (take : MgmtWord → Option α) (run : α → State → State × Reply)
    (owner : ∀ a, (run a s).1.noticesSettled) : (execute form (withArg take run) s).noticesSettled := by
  refine execute_settled h form _ fun i r => ?_
  unfold withArg
  split
  · exact owner _
  · exact h

theorem exec_settled {t : State} (c : Instr) (runs : exec c s = .next t) : t.noticesSettled := by
  cases c with
  | powerOnReset straps =>
    cases runs
    exact ⟨powerOn_noticesAgree straps s.free s.pending, powerOn_noticeBuilt straps s.free s.pending⟩
  | tapValue p symbols =>
    cases runs
    split
    · exact foldl_inv State.noticesSettled _ (fun _ y settled => receiveSymbol_settled settled p y) symbols s h
    · exact h
  | lockedSymbol | receiverUp | tapProvedFalse | oversizeFrame | lossOfAlignment | frameCompletedD =>
    cases runs
    split
    · exact receiveSymbol_settled h _ _
    · exact h
  | symbolReceived p symbol =>
    cases runs
    exact receiveSymbol_settled h p symbol
  | frameCompletedU =>
    cases runs
    split
    · exact finishHanding_settled (receiveSymbol_settled h .u .endFrame)
    · exact takeTurn_settled h
  | pauseEnd | holdoffExpiry =>
    cases runs
    split
    · exact ticks_settled _ s h
    · exact h
  | write | writeChannelMap | writeWatch | writeSlot | writeTimingSet | writeCountTable | writeEnableSet | writeOrderList
  | writeExpressClass | writeCheckMode =>
    cases runs
    exact execute_settled h _ _ (runWrite_settled h)
  | armSlot =>
    cases runs
    exact executeArg_settled h _ _ _ (armSlot_settled h)
  | disarmSlot =>
    cases runs
    exact executeArg_settled h _ _ _ (disarmSlot_settled h)
  | forceTrigger =>
    cases runs
    exact executeArg_settled h _ _ _ fun i => trigger_settled h i 32 0
  | releaseHalf =>
    cases runs
    exact executeArg_settled h _ _ _ fun a => releaseHalf_settled h a.1 a.2
  | ackNotice =>
    cases runs
    exact executeArg_settled h _ _ _ fun a => build_settles (h.agrees.acknowledged a.1 a.2)
  | realign =>
    cases runs
    exact executeArg_settled h _ _ _ (realign_settled h)
  | enableWatch =>
    cases runs
    refine executeArg_settled h _ _ _ fun w => h.of_eq ?_
    unfold enableWatch
    (repeat' split) <;> simp [acceptedWith, refusedWith]
  | disableWatch | gate =>
    cases runs
    exact executeArg_settled h _ _ _ fun _ => h.of_eq ⟨rfl, rfl⟩
  | read =>
    cases runs
    refine execute_settled h _ _ fun i r => h.of_eq ?_
    unfold runRead
    split <;> exact ⟨rfl, rfl⟩
  | fetch =>
    cases runs
    refine execute_settled h _ _ fun i r => h.of_eq ?_
    unfold runFetch
    split <;> exact ⟨rfl, rfl⟩
  | clearFault =>
    cases runs
    exact execute_settled h _ _ fun _ _ => h.of_eq ⟨rfl, rfl⟩
  | memStart =>
    cases runs
    refine execute_settled h _ _ fun _ _ => h.of_eq ?_
    unfold withoutArg memStart
    split <;> simp [acceptedWith, refusedWith]
  | memHold =>
    cases runs
    exact execute_settled h _ _ fun _ _ => memHold_settled h
  | resetCapture =>
    cases runs
    exact execute_settled h _ _ fun _ _ => resetCapture_settled h
  | burstEnd =>
    cases runs
    split
    · exact endBurst_settled h _
    · exact h
  | initSequenceEnd =>
    cases runs
    split
    · have ready : (raise classState srcMemoryReady (enterReady .ready s)).noticesSettled :=
        h.raisedAfter ⟨rfl, rfl⟩
      exact ready.of_eq (by simp)
    · exact h
  | fetchReadEnd =>
    cases runs
    split
    · exact h.of_eq ⟨by simp, endRead_nodeAddress _ _ s⟩
    · exact h
  | refreshDue | refreshEnd | countTableWriteEnd | closingOperationEnd | exitSequenceEnd | uFrameSent =>
    cases runs
    refine h.of_eq ?_
    (repeat' split) <;> simp
  | dFrameSent =>
    cases runs
    split
    · exact dSent_settled h _
    · exact h

end

end Sys2Proof.Machine

open Sys2Proof Sys2Proof.Machine

/-- Settles O15: every raise and every change of the notice unit ends in a build, which leaves the unit in agreement and nothing
unbuilt. -/
theorem stepKeepsTheNoticeUnit : Obligations.StepKeepsTheNoticeUnit := by
  intro s t settled h
  cases pending : s.pending with
  | nil =>
    rw [step_of_empty pending] at h
    cases h
    exact tick_settled settled
  | cons c rest =>
    have runs : step s = exec c (s.withQueue rest) := by simp [step, pending]
    exact exec_settled (s := s.withQueue rest) (State.noticesSettled.of_eq settled ⟨rfl, rfl⟩) c (runs ▸ h)
end

section
/-! SUPPORT. The D transmit arbiter: the oldest context, the response on offer, and when nothing waits for either transmitter (R160 to
R162, R169, R170, R173). -/

namespace Sys2Proof.Machine

/-! ## The oldest context (R169) -/

/-- The place of a context in the order of taking; a FREE one has none and counts as first. -/
def Context.rank (c : Context) : Nat :=
  c.order.getD 0

/-- Context i was taken no later than context j, the lower number going first among equals. -/
def State.takenFirst (s : State) (i j : Fin 4) : Prop :=
  (s.context i).rank < (s.context j).rank ∨ (s.context i).rank = (s.context j).rank ∧ i ≤ j

theorem oldest_eq_argmin (s : State) (p : Context → Bool) :
    s.oldest p = ((List.finRange 4).filter fun i => p (s.context i)).argmin fun i => (s.context i).rank := by
  rw [List.argmin, List.foldl_filter]
  unfold State.oldest
  congr 1
  funext best i
  cases best <;> rfl

/-- The oldest is the one selected context that was taken first of all selected. -/
theorem oldest_eq_some_iff (s : State) (p : Context → Bool) (i : Fin 4) :
    s.oldest p = some i ↔ p (s.context i) = true ∧ ∀ j, p (s.context j) = true → s.takenFirst i j := by
  have place : ∀ {l : List (Fin 4)}, l.SortedLT → ∀ {a b}, a ∈ l → b ∈ l → (l.idxOf a ≤ l.idxOf b ↔ a ≤ b) :=
    fun sorted a b ha hb => by
      rw [← sorted.getElem_le_getElem_iff (hi := List.idxOf_lt_length_iff.mpr ha) (hj := List.idxOf_lt_length_iff.mpr hb),
        List.getElem_idxOf, List.getElem_idxOf]
  have sorted : ((List.finRange 4).filter fun i => p (s.context i)).SortedLT :=
    ((List.sortedLT_finRange 4).pairwise.filter _).sortedLT
  rw [oldest_eq_argmin, ← Option.mem_def, List.mem_argmin_iff]
  simp only [List.mem_filter, List.mem_finRange, true_and]
  refine and_congr_right fun hi => ⟨fun ⟨least, first⟩ j hj => ?_, fun h => ⟨fun j hj => ?_, fun j hj le => ?_⟩⟩
  · rcases Nat.lt_or_ge (s.context i).rank (s.context j).rank with lt | ge
    · exact .inl lt
    · exact .inr ⟨Nat.le_antisymm (least j hj) ge, (place sorted (by simpa using hi) (by simpa using hj)).mp (first j hj ge)⟩
  · rcases h j hj with lt | ⟨eq, -⟩
    · exact Nat.le_of_lt lt
    · exact Nat.le_of_eq eq
  · rcases h j hj with lt | ⟨-, first⟩
    · exact absurd le (Nat.not_le_of_lt lt)
    · exact (place sorted (by simpa using hi) (by simpa using hj)).mpr first

/-! ## The response on offer (R170, R173) -/

theorem offeredResponse_of_refusal {s : State} {x : Refused} (h : s.ep.refusal = some x) :
    s.offeredResponse = some (.busy, x.response) := by
  simp [State.offeredResponse, h]

/-- With the refusal slot empty, the oldest context that is not FREE offers its response, if it is ANSWERING. -/
theorem offeredResponse_eq_some_iff {s : State} (h : s.ep.refusal = none) (holder : DHolder) (r : Response) :
    s.offeredResponse = some (holder, r) ↔
      ∃ i q, holder = .context i ∧ s.context i = .answering q r ∧ s.oldest (fun c => !c.isFree) = some i := by
  unfold State.offeredResponse
  simp only [h]
  cases oldest : s.oldest fun c => !c.isFree with
  | none => simp
  | some i => cases context : s.context i <;> grind

/-- A context that becomes WAITING, or goes from WAITING to READING, brings no response to light. -/
theorem setContext_offersNothing {s : State} {i : Fin 4} {c : Context} (taken : c.isFree = false) (silent : ∀ q r, c ≠ .answering q r)
    (rank : (s.context i).isFree = false → (s.context i).rank = c.rank) (h : s.offeredResponse = none) :
    (s.setContext i c).offeredResponse = none := by
  cases refusal : s.ep.refusal with
  | some x => simp [offeredResponse_of_refusal refusal] at h
  | none =>
    rw [Option.eq_none_iff_forall_ne_some]
    rintro ⟨holder, r⟩ offered
    obtain ⟨k, q, -, answers, oldest⟩ := (offeredResponse_eq_some_iff (s := s.setContext i c) refusal holder r).mp offered
    have away : k ≠ i := fun e => silent q r (by rw [← answers, e, context_setContext])
    rw [context_setContext_ne s c away] at answers
    have first : s.oldest (fun c => !c.isFree) = some k := by
      rw [oldest_eq_some_iff] at oldest ⊢
      obtain ⟨-, first⟩ := oldest
      refine ⟨by simp [answers, Context.isFree], fun j hj => ?_⟩
      by_cases e : j = i
      · subst e
        have before := first j (by simp [taken])
        rwa [State.takenFirst, context_setContext, context_setContext_ne s c away, ← rank (by simpa using hj)] at before
      · have before := first j (by rwa [context_setContext_ne s c e])
        rwa [State.takenFirst, context_setContext_ne s c e, context_setContext_ne s c away] at before
    rw [(offeredResponse_eq_some_iff refusal (.context k) r).mpr ⟨k, q, rfl, answers, first⟩] at h
    cases h

/-- Nothing is a candidate exactly when the U-to-D queue and the notice slot are empty and no response is on offer (R161). -/
theorem dCandidate_eq_none_iff (s : State) :
    s.dCandidate = none ↔ s.link.u2d = [] ∧ s.notices.noticeSlot = none ∧ s.offeredResponse = none := by
  have response : s.responseCandidate = none ↔ s.offeredResponse = none := by
    unfold State.responseCandidate
    cases s.offeredResponse <;> simp
  unfold State.dCandidate
  rw [← response]
  cases queue : s.link.u2d with
  | nil =>
    cases slot : s.notices.noticeSlot with
    | none => cases s.responseCandidate <;> simp [State.noticeCandidate, State.forwardCandidate, queue, slot, Config.forwardHighWater]
    | some n =>
      cases express : n.express <;> cases s.responseCandidate <;>
        simp [State.noticeCandidate, slot, express, Config.forwardHighWater]
  | cons f rest =>
    have head : s.forwardCandidate = some ⟨.forward, f⟩ := by simp [State.forwardCandidate, queue]
    simp only [head, reduceCtorEq, false_and, iff_false]
    (repeat' split) <;> simp

end Sys2Proof.Machine
end

section
/-! SUPPORT. TransmitArbiterFollowsItsOrder: R161's five items, one equation for each, and what is on offer as R170 and R173 say it. -/

namespace Sys2Proof.Machine

/-! ## The response on offer, said of contexts (R169, R170, R173) -/

/-- A context that is not FREE was taken first when every other one's order is later. -/
theorem oldest_of_earliest {s : State} {i : Fin 4} {q : Taken} {r : Response} (answers : s.context i = .answering q r)
    (earliest : ∀ j n, j ≠ i → (s.context j).order = some n → q.order < n) : s.oldest (fun c => !c.isFree) = some i := by
  refine (oldest_eq_some_iff s _ i).mpr ⟨by simp [answers, Context.isFree], fun j taken => ?_⟩
  by_cases e : j = i
  · subst e
    exact .inr ⟨rfl, le_rfl⟩
  · have later := earliest j
    left
    cases c : s.context j <;> simp_all [Context.rank, Context.order, Context.isFree]

theorem offeredResponse_of_earliest {s : State} {i : Fin 4} {q : Taken} {r : Response} (empty : s.ep.refusal = none)
    (answers : s.context i = .answering q r) (earliest : ∀ j n, j ≠ i → (s.context j).order = some n → q.order < n) :
    s.offeredResponse = some (.context i, r) :=
  (offeredResponse_eq_some_iff empty _ r).mpr ⟨i, q, rfl, answers, oldest_of_earliest answers earliest⟩

/-- A response with an older context before it is not on offer. -/
theorem offeredResponse_of_noEarliest {s : State} (empty : s.ep.refusal = none)
    (older : ∀ i q r, s.context i = .answering q r → ∃ j n, j ≠ i ∧ (s.context j).order = some n ∧ n < q.order) :
    s.offeredResponse = none := by
  rw [Option.eq_none_iff_forall_ne_some]
  rintro ⟨holder, r⟩ offered
  obtain ⟨i, q, -, answers, oldest⟩ := (offeredResponse_eq_some_iff empty holder r).mp offered
  obtain ⟨j, n, -, order, lt⟩ := older i q r answers
  have taken : (s.context j).isFree = false := by
    cases c : s.context j <;> simp_all [Context.order, Context.isFree]
  have first := ((oldest_eq_some_iff s _ i).mp oldest).2 j (by simp [taken])
  have rank : (s.context i).rank = q.order := by rw [answers]; rfl
  have other : (s.context j).rank = n := by simp [Context.rank, order]
  rw [State.takenFirst, rank, other] at first
  omega

/-! ## R161's items -/

theorem forwardCandidate_eq (s : State) : s.forwardCandidate = s.link.u2d.head?.map fun f => ⟨.forward, f⟩ := by
  unfold State.forwardCandidate
  cases s.link.u2d <;> rfl

section
variable {s : State}

/-- Item 1: the stream goes first at the high water mark. -/
theorem dCandidate_of_highWater (high : 6 ≤ s.link.u2d.length) : s.dCandidate = s.forwardCandidate :=
  if_pos high

/-- Item 2. -/
theorem dCandidate_of_express {n : Notice} (low : s.link.u2d.length < 6) (slot : s.notices.noticeSlot = some n)
    (express : n.express = true) : s.dCandidate = some ⟨.notice, n.frame⟩ := by
  simp [State.dCandidate, Config.forwardHighWater, Nat.not_le.mpr low, State.noticeCandidate, slot, express]

/-- Item 3. -/
theorem dCandidate_of_response {holder : DHolder} {r : Response} (low : s.link.u2d.length < 6)
    (ordinary : ∀ n, s.notices.noticeSlot = some n → n.express = false) (offered : s.offeredResponse = some (holder, r)) :
    s.dCandidate = some ⟨holder, r.frame s.ep.nodeAddress⟩ := by
  have noExpress : s.noticeCandidate true = none := by
    unfold State.noticeCandidate
    cases slot : s.notices.noticeSlot with
    | none => rfl
    | some n => simp [ordinary n slot]
  simp [State.dCandidate, Config.forwardHighWater, Nat.not_le.mpr low, noExpress, State.responseCandidate, offered]

/-- Item 4. -/
theorem dCandidate_of_ordinary {n : Notice} (low : s.link.u2d.length < 6) (slot : s.notices.noticeSlot = some n)
    (ordinary : n.express = false) (silent : s.offeredResponse = none) : s.dCandidate = some ⟨.notice, n.frame⟩ := by
  simp [State.dCandidate, Config.forwardHighWater, Nat.not_le.mpr low, State.noticeCandidate, slot, ordinary,
    State.responseCandidate, silent]

/-- Item 5. -/
theorem dCandidate_of_stream (low : s.link.u2d.length < 6) (empty : s.notices.noticeSlot = none) (silent : s.offeredResponse = none) :
    s.dCandidate = s.forwardCandidate := by
  simp [State.dCandidate, Config.forwardHighWater, Nat.not_le.mpr low, State.noticeCandidate, empty, State.responseCandidate,
    silent]

end

end Sys2Proof.Machine

open Sys2Proof Sys2Proof.Machine

/-- Settles O39: R161's items in turn, on what the refusal slot or the oldest context offers. -/
theorem transmitArbiterFollowsItsOrder : Obligations.TransmitArbiterFollowsItsOrder := by
  intro s head offers offersNone
  have stream : s.forwardCandidate = head := forwardCandidate_eq s
  have offered : ∀ holder r, offers holder r → s.offeredResponse = some (holder, r) := by
    rintro holder r (⟨x, refused, rfl, rfl⟩ | ⟨empty, i, q, rfl, answers, earliest⟩)
    · exact offeredResponse_of_refusal refused
    · exact offeredResponse_of_earliest empty answers earliest
  have silent : offersNone → s.offeredResponse = none := fun ⟨empty, older⟩ => offeredResponse_of_noEarliest empty older
  exact ⟨fun high => (dCandidate_of_highWater high).trans stream, fun n low slot express => dCandidate_of_express low slot express,
    fun holder r low ordinary on => dCandidate_of_response low ordinary (offered holder r on),
    fun n low slot ordinary none => dCandidate_of_ordinary low slot ordinary (silent none),
    fun low empty none => (dCandidate_of_stream low empty (silent none)).trans stream⟩
end

section
/-! SUPPORT. StepLeavesNoFrameAtAnIdleTransmitter: each transmitter's side of the invariant, what brings a candidate to light, and so the
invariant through every build, every operation that raises a source, and every command (R136, R159 to R162, R170, R173). -/

namespace Sys2Proof.Machine

/-! ## The two transmitters (R160, R162) -/

/-- The D port's transmitter does not idle while something waits for it. -/
def State.dServed (s : State) : Prop :=
  s.dPort.receiver = .up → s.link.dSending = none → s.dCandidate = none

/-- The U port's transmitter does not idle while a frame waits for it. -/
def State.uServed (s : State) : Prop :=
  s.uPort.receiver = .up → s.link.uSending = none → s.link.d2u = []

/-- A decision point serves its transmitter, whatever stood before it. -/
theorem dChoose_dServed (s : State) : (dChoose s).dServed :=
  dChoose_settled s

theorem uChoose_uServed (s : State) : (uChoose s).uServed := by
  intro up idle
  by_cases sending : s.link.uSending = none
  · rw [uChoose_sends sending, if_pos (by simpa using up)] at idle
    simpa using idle
  · have same : uChoose s = s := if_neg fun h => sending h.2
    exact absurd (same ▸ idle) sending

/-- From `s` to `t` no receiver has come UP, the link is untouched, and nothing has become a candidate. -/
structure OffersNoMore (s t : State) : Prop where
  uUp : t.uPort.receiver = .up → s.uPort.receiver = .up
  dUp : t.dPort.receiver = .up → s.dPort.receiver = .up
  link : t.link = s.link
  notice : s.notices.noticeSlot = none → t.notices.noticeSlot = none
  response : s.offeredResponse = none → t.offeredResponse = none

theorem State.dServed.of_offers {s t : State} (h : s.dServed) (o : OffersNoMore s t) : t.dServed := by
  intro up idle
  rw [o.link] at idle
  have none := h (o.dUp up) idle
  rw [dCandidate_eq_none_iff] at none ⊢
  obtain ⟨queue, slot, silent⟩ := none
  exact ⟨by rw [o.link, queue], o.notice slot, o.response silent⟩

theorem State.uServed.of_offers {s t : State} (h : s.uServed) (o : OffersNoMore s t) : t.uServed := by
  intro up idle
  rw [o.link] at idle ⊢
  exact h (o.uUp up) idle

/-- The response on offer is read from the refusal slot and the contexts. -/
theorem offeredResponse_congr {s t : State} (same : t.ep.refusal = s.ep.refusal ∧ t.ep.contexts = s.ep.contexts) :
    t.offeredResponse = s.offeredResponse := by
  obtain ⟨refusal, contexts⟩ := same
  simp only [State.offeredResponse, State.oldest, context_of_contexts contexts, refusal]

theorem offersNoMore_of_eq {s t : State} (same : t.uPort = s.uPort ∧ t.dPort = s.dPort ∧ t.link = s.link ∧
    t.notices.noticeSlot = s.notices.noticeSlot ∧ t.ep.refusal = s.ep.refusal ∧ t.ep.contexts = s.ep.contexts) :
    OffersNoMore s t := by
  obtain ⟨uPort, dPort, link, notice, ep⟩ := same
  exact ⟨by simp [uPort], by simp [dPort], link, fun h => notice.trans h, fun h => (offeredResponse_congr ep).trans h⟩

/-- A port that does not come UP. -/
theorem offersNoMore_setPort (s : State) (p : Port) {x : PortState} (up : x.receiver = .up → (s.port p).receiver = .up) :
    OffersNoMore s (s.setPort p x) := by
  have response : (s.setPort p x).offeredResponse = s.offeredResponse := offeredResponse_congr (by simp)
  cases p with
  | u => exact ⟨up, id, rfl, id, fun h => response.trans h⟩
  | d => exact ⟨id, up, rfl, id, fun h => response.trans h⟩

/-! ## Builds, raised sources and decision points (R132, R136, R160) -/

theorem State.transmitBusy.of_offers {s t : State} (h : s.transmitBusy) (o : OffersNoMore s t) : t.transmitBusy := by
  obtain ⟨down, up⟩ := h
  exact ⟨State.dServed.of_offers down o, State.uServed.of_offers up o⟩

theorem State.transmitBusy.of_eq {s t : State} (h : s.transmitBusy) (same : t.uPort = s.uPort ∧ t.dPort = s.dPort ∧
    t.link = s.link ∧ t.notices.noticeSlot = s.notices.noticeSlot ∧ t.ep = s.ep) : t.transmitBusy := by
  obtain ⟨uPort, dPort, link, notice, ep⟩ := same
  exact h.of_offers (offersNoMore_of_eq ⟨uPort, dPort, link, notice, by rw [ep], by rw [ep]⟩)

/-- The D transmit arbiter needs nothing of its own side, and leaves the other. -/
theorem dChoose_served {s : State} (h : s.uServed) : (dChoose s).transmitBusy := by
  refine ⟨dChoose_dServed s, fun up idle => ?_⟩
  obtain ⟨-, d2u, uSending⟩ := dChoose_link s
  rw [d2u]
  exact h (by simpa using up) (uSending ▸ idle)

theorem uChoose_served {s : State} (h : s.dServed) : (uChoose s).transmitBusy := by
  refine ⟨fun up idle => ?_, uChoose_uServed s⟩
  obtain ⟨u2d, -, dSending⟩ := uChoose_link s
  have none := h (by simpa using up) (dSending ▸ idle)
  rw [dCandidate_eq_none_iff] at none ⊢
  obtain ⟨queue, slot, silent⟩ := none
  exact ⟨u2d.trans queue, by simpa using slot, (offeredResponse_congr (by simp)).trans silent⟩

/-- A notice built is a candidate at a decision point (R160). -/
theorem State.transmitBusy.built {s : State} (h : s.transmitBusy) : (build s).transmitBusy := by
  cases choice : s.notices.buildChoice s.ep.nodeAddress with
  | none => rwa [build_of_none choice]
  | some c =>
    rw [build_of_some choice]
    exact dChoose_served h.2

theorem State.transmitBusy.raised {s : State} (h : s.transmitBusy) {c : Fin 8} {n : Fin 32} : (raise c n s).transmitBusy :=
  State.transmitBusy.built (h.of_eq (t := { s with notices := s.notices.withPending c n }) ⟨rfl, rfl, rfl, rfl, rfl⟩)

section
variable {s : State} (h : s.transmitBusy)
include h

theorem State.transmitBusy.raisedAfter {t : State} {c : Fin 8} {n : Fin 32} (same : t.uPort = s.uPort ∧ t.dPort = s.dPort ∧
    t.link = s.link ∧ t.notices.noticeSlot = s.notices.noticeSlot ∧ t.ep = s.ep) : (raise c n t).transmitBusy :=
  (h.of_eq same).raised

/-! ## Halves and completion (R71 to R74, R83, R84) -/

theorem reclaim_served (i : Fin 8) (k : Half) : (reclaim i k s).transmitBusy :=
  h.raisedAfter (by simp)

theorem listFull_served (i : Fin 8) (k : Half) : (listFull i k s).transmitBusy :=
  h.raisedAfter (by simp)

theorem halfFull_served (i : Fin 8) (k : Half) : (halfFull i k s).transmitBusy := by
  unfold halfFull
  split
  · exact reclaim_served (listFull_served h i k) i k
  · exact listFull_served h i k

theorem complete_served (i : Fin 8) (k : Half) : (complete i k s).transmitBusy := by
  have sealed : (s.setSlot i ((s.slot i).sealed k)).transmitBusy := h.of_eq (by simp)
  unfold complete nextHalf
  split
  case h_2 => exact reclaim_served sealed i _
  all_goals exact sealed.of_eq (by simp)

theorem truncate_served (i : Fin 8) (k : Half) : (truncate i k s).transmitBusy := by
  unfold truncate sealIfWritten
  split
  · exact halfFull_served (h.of_eq (by simp)) i k
  · exact h.of_eq (by simp)

/-! ## Samples and triggers (R31, R61, R62, R64, R67) -/

theorem afterPost_served (i : Fin 8) (k : Half) : (afterPost i k s).transmitBusy := by
  unfold afterPost
  split
  · exact complete_served h i k
  · split
    · exact h.raisedAfter (by simp)
    · exact h

theorem storeSample_served (i : Fin 8) (k : Half) (v : Sample) (t : Tick) : (storeSample i k v t s).transmitBusy := by
  unfold storeSample
  dsimp only
  split
  · exact afterPost_served (h.of_eq (by simp)) i k
  · exact h.of_eq (by simp)

theorem slotSample_served (i : Fin 8) (v : Sample) (t : Tick) : (slotSample i v t s).transmitBusy := by
  have receives : ∀ k,
      (if Config.queueCapacity ≤ s.queue.length then loseSample i k s else storeSample i k v t s).transmitBusy := fun k => by
    split
    · exact h.raisedAfter (by simp)
    · exact storeSample_served h i k v t
  unfold slotSample
  split
  · exact receives _
  · exact receives _
  all_goals exact h

theorem trigger_served (i : Fin 8) (source : Nat) (t : Tick) : (trigger i source t s).1.transmitBusy := by
  unfold trigger
  split
  · exact h
  · exact h.raised
  all_goals
    split
    · exact h.of_eq (by simp)
    · exact h

theorem watchSample_served (w : Fin 32) (v : Sample) (t : Tick) : (watchSample w v t s).transmitBusy := by
  have fires : ∀ u : State, u.transmitBusy → (fireWatch w t u).transmitBusy := fun u busy => by
    have asked : (requestTrigger w t u).1.transmitBusy := by
      unfold requestTrigger
      split
      · exact trigger_served busy _ _ _
      · exact busy
    simp only [fireWatch]
    exact asked.raisedAfter (by simp)
  have moved : (s.setWatch w ((s.watch w).onSample v t).1).transmitBusy := h.of_eq (by simp)
  unfold watchSample
  dsimp only
  split
  · exact fires _ moved
  · exact moved

theorem takeTurn_served : (takeTurn s).transmitBusy := by
  have moved : ∀ x : Option Handing, State.transmitBusy { s with handing := x } := fun _ => h.of_eq ⟨rfl, rfl, rfl, rfl, rfl⟩
  unfold takeTurn
  split
  · exact h
  · split
    · exact moved none
    · split
      · unfold handToWatch
        split
        · exact watchSample_served (moved _) _ _ _
        · exact moved _
      · unfold handToSlot
        split
        · exact slotSample_served (moved _) _ _ _
        · exact moved _

omit h in
theorem takeTurns_served (n : Nat) (s : State) (h : s.transmitBusy) : (takeTurns n s).transmitBusy := by
  induction n generalizing s with
  | zero => exact h
  | succ n ih => exact ih _ (takeTurn_served h)

theorem finishHanding_served : (finishHanding s).transmitBusy := by
  unfold finishHanding
  split
  · exact h
  · exact (takeTurns_served _ s h).of_eq ⟨rfl, rfl, rfl, rfl, rfl⟩

/-! ## Receivers (R149 to R152, R155) -/

theorem setPort_served (p : Port) {x : PortState} (up : x.receiver = .up → (s.port p).receiver = .up) :
    (s.setPort p x).transmitBusy :=
  h.of_offers (offersNoMore_setPort s p up)

theorem seekSymbol_served (p : Port) (y : Symbol) : (seekSymbol p y s).transmitBusy := by
  have fails : ∀ x, (x.receiver = .up → (s.port p).receiver = .up) → (failSweep p x s).transmitBusy := fun x up => by
    unfold failSweep
    dsimp only
    split
    · split
      · refine State.transmitBusy.raised (setPort_served h .u ?_)
        nofun
      · exact setPort_served h .u up
    · exact setPort_served h .d up
  have judges : ∀ x, (x.receiver = .up → (s.port p).receiver = .up) → (judgeTap p x s).transmitBusy := fun x up => by
    unfold judgeTap
    dsimp only
    split
    · exact setPort_served h p (x := x.lockedOn) nofun
    · split
      · exact setPort_served h p up
      · exact fails _ up
  unfold seekSymbol
  dsimp only
  split
  · exact h
  · split
    · exact setPort_served h p id
    · exact judges _ id

/-- The entry to UP is a decision point of the port's own transmitter (R160, R162). -/
theorem goUp_served (p : Port) (x : PortState) : (goUp p x s).transmitBusy := by
  obtain ⟨down, up⟩ := h
  refine State.transmitBusy.raised ?_
  cases p with
  | u => exact uChoose_served down
  | d => exact dChoose_served up

theorem lockedSymbol_served (p : Port) (y : Symbol) : (lockedSymbol p y s).transmitBusy := by
  unfold lockedSymbol
  dsimp only
  split
  · exact goUp_served h p _
  · split
    · exact setPort_served h p nofun
    · exact setPort_served h p id

theorem frameOctet_served (p : Port) (o : Octet) (f : RxFrame) : (frameOctet p o f s).transmitBusy := by
  have framed : ∀ g, (s.setPort p { s.port p with frame := g }).transmitBusy := fun g => setPort_served h p id
  unfold frameOctet
  split
  · exact h
  · split
    · exact framed _
    · exact (framed _).raised

/-! ## Frames and requests (R157 to R159, R165 to R170) -/

theorem forwardU2D_served (f : Frame) : (forwardU2D f s).transmitBusy := by
  unfold forwardU2D
  split
  · exact dChoose_served h.2
  · exact h.raised

theorem forwardD2U_served (f : Frame) : (forwardD2U f s).transmitBusy := by
  unfold forwardD2U
  split
  · exact uChoose_served h.1
  · exact h.raised

theorem routeU_served (f : Frame) : (routeU f s).transmitBusy := by
  unfold routeU
  dsimp only
  split
  · exact (forwardU2D_served h f).of_eq (by simp)
  · exact forwardU2D_served h f

/-- A request taken brings no response to light; a BUSY response is a candidate at a decision point (R160, R169, R170). -/
theorem takeRequest_served (r : Request) : (takeRequest r s).transmitBusy := by
  have accepts : ∀ i, s.freeContext = some i → (acceptRequest i r s).transmitBusy := fun i free => by
    have taken : OffersNoMore s (s.setContext i (.waiting ⟨r, s.ep.accepted⟩)) :=
      ⟨id, id, rfl, id, setContext_offersNothing rfl nofun fun full => by simp [freeContext_free free, Context.isFree] at full⟩
    exact (h.of_offers taken).of_offers (offersNoMore_of_eq ⟨rfl, rfl, rfl, rfl, rfl, rfl⟩)
  have fails : (checkFailure r s).transmitBusy := by
    refine State.transmitBusy.raised (h.of_offers (offersNoMore_of_eq ?_))
    exact ⟨rfl, rfl, rfl, rfl, rfl, rfl⟩
  have refuses : (refuseRequest r s).transmitBusy := by
    unfold refuseRequest
    split
    · exact dChoose_served h.2
    · exact h
  unfold takeRequest
  split
  · exact fails
  · split
    · split
      · split
        · exact accepts _ ‹_›
        · exact h
      · exact h
    · split
      · exact accepts _ ‹_›
      · exact refuses

theorem routeD_served (f : Frame) : (routeD f s).transmitBusy := by
  have taken : (if takenByEndpoint s.ep.nodeAddress f then takeRequest (Request.ofFrame f) s else s).transmitBusy := by
    split
    · exact takeRequest_served h _
    · exact h
  unfold routeD
  dsimp only
  split
  · exact forwardD2U_served taken f
  · exact taken

theorem frameEnd_served (p : Port) (f : RxFrame) : (frameEnd p f s).transmitBusy := by
  have closed : (s.setPort p { s.port p with frame := none }).transmitBusy := setPort_served h p id
  unfold frameEnd
  dsimp only
  split
  · exact closed
  · cases p with
    | u => exact routeU_served closed f.octets
    | d => exact routeD_served closed f.octets

theorem assemble_served (p : Port) (y : Symbol) : (assemble p y s).transmitBusy := by
  unfold assemble
  split
  case h_2 o f _ => exact frameOctet_served h p o f
  case h_4 f _ => exact frameEnd_served h p f
  case h_3 | h_5 => exact h
  all_goals exact setPort_served h p id

theorem upSymbol_served (p : Port) (y : Symbol) : (upSymbol p y s).transmitBusy := by
  have counted : (s.setPort p { s.port p with invalidRun := upRun y (s.port p).invalidRun }).transmitBusy := setPort_served h p id
  unfold upSymbol
  dsimp only
  split
  · exact State.transmitBusy.raised (setPort_served counted p (x := PortState.dropped _) nofun)
  · exact assemble_served counted p y

theorem receiveSymbol_served (p : Port) (y : Symbol) : (receiveSymbol p y s).transmitBusy := by
  have earlier : (settleEarlier p y s).transmitBusy := by
    unfold settleEarlier
    split
    · exact finishHanding_served h
    · exact h
  unfold receiveSymbol
  split
  · exact seekSymbol_served h p y
  · exact lockedSymbol_served h p y
  · exact upSymbol_served earlier p y
  · exact h

/-! ## The microsecond step and ends of operations (R83, R102, R114, R140, R150) -/

theorem tick_served : (tick s).transmitBusy := by
  have stays : ∀ x : PortState, x.pauseStep.receiver = .up → x.receiver = .up := fun x up => by
    unfold PortState.pauseStep at up
    split at up
    · split at up
      · cases up
      · exact up
    · exact up
  exact State.transmitBusy.built (h.of_offers ⟨stays _, stays _, rfl, id, id⟩)

omit h in
theorem ticks_served (n : Nat) (s : State) (h : s.transmitBusy) : (ticks n s).transmitBusy := by
  induction n generalizing s with
  | zero => exact h
  | succ n ih => exact ih _ (tick_served h)

theorem endBurst_served (entries : List QueueEntry) : (endBurst entries s).transmitBusy := by
  have written : (burstWritten entries s).transmitBusy := h.of_eq ⟨rfl, rfl, rfl, rfl, rfl⟩
  unfold endBurst
  dsimp only
  split
  · exact written.of_eq (by simp)
  · rename_i e rest
    have ended : (sealAtEnd e.slot e.half (burstWritten (e :: rest) s)).transmitBusy := by
      unfold sealAtEnd
      split
      · exact halfFull_served written _ _
      · exact written
    exact ended.of_eq (by simp)

theorem endRead_served (r : FetchRead) (rest : List FetchRead) : (endRead r rest s).transmitBusy := by
  have done : (readDone r rest s).transmitBusy := h.of_eq (by simp)
  refine State.transmitBusy.of_eq (s := answerRead r.context (packWords (s.mem.fetchWords s.free r.address r.count)) (readDone r rest s))
    ?_ (by simp [endRead])
  unfold answerRead
  split
  · exact dChoose_served done.2
  all_goals exact done

/-- The next choice at D-out comes last. -/
theorem dSent_served (x : DSending) : (s.dSent x).transmitBusy := by
  refine dChoose_served fun up idle => ?_
  obtain ⟨-, d2u, uSending⟩ := freeHolder_link x.holder s
  simp only [build_link, build_keeps, clearDOut, freeHolder_keeps, d2u, uSending] at up idle ⊢
  exact h.2 up idle

/-! ## Owners of requests (R133 to R135, R142, R146, R163) -/

theorem writeControl_served (r : Request) : (writeControl r s).1.transmitBusy := by
  have moded : (writeMode r s).transmitBusy := h.of_offers (offersNoMore_of_eq ⟨rfl, rfl, rfl, rfl, rfl, rfl⟩)
  have counted : (writeCountSettings r (writeMode r s)).transmitBusy := by
    rw [writeCountSettings_eq]
    exact moded.of_eq (by simp)
  unfold writeControl
  split
  · exact h
  · exact State.transmitBusy.built (counted.of_eq ⟨rfl, rfl, rfl, rfl, rfl⟩)

theorem writeNotice_served (r : Request) : (writeNotice r s).1.transmitBusy := by
  unfold writeNotice
  split
  · exact h
  · exact State.transmitBusy.built (h.of_eq ⟨rfl, rfl, rfl, rfl, rfl⟩)

/-- Of all owners of a WRITE, CONTROL and NOTICE alone can build a notice. -/
theorem runWrite_served (i : Fin 4) (r : Request) : (runWrite i r s).1.transmitBusy := by
  unfold runWrite
  split
  · exact h
  · unfold writeOwner
    split
    case h_1 => exact writeControl_served h r
    case h_5 => exact writeNotice_served h r
    case h_7 => exact h
    all_goals refine h.of_eq ?_
    · unfold writeMap
      (repeat' split) <;> simp [acceptedWith, refusedWith]
    · unfold writeWatches
      (repeat' split) <;> simp [acceptedWith, refusedWith]
    · unfold writeSlots
      (repeat' split) <;> simp [acceptedWith, refusedWith]
    · unfold writeTiming
      (repeat' split) <;> simp [acceptedWith, refusedWith]

theorem armSlot_served (i : Fin 8) : (armSlot i s).1.transmitBusy := by
  have withdrawn : (withdrawHold s).transmitBusy := h.of_eq ⟨rfl, rfl, rfl, rfl, rfl⟩
  have reclaims : ∀ k, (armReclaim i k (withdrawHold s)).transmitBusy := fun k => withdrawn.raisedAfter (by simp)
  unfold armSlot armTakes acceptedWith
  (repeat' split)
  case h_1 => exact h
  case h_1 => exact reclaims _
  all_goals exact withdrawn.of_eq (by simp)

theorem disarmSlot_served (i : Fin 8) : (disarmSlot i s).1.transmitBusy := by
  unfold disarmSlot
  split
  case h_3 => exact truncate_served h i _
  all_goals exact h.of_eq (by simp [acceptedWith, refusedWith])

theorem releaseHalf_served (i : Fin 8) (k : Half) : (releaseHalf i k s).1.transmitBusy := by
  unfold releaseHalf releaseFull
  (repeat' split) <;> exact h.of_eq (by simp [acceptedWith, refusedWith])

theorem enableWatch_served (w : Fin 32) : (enableWatch w s).1.transmitBusy := by
  unfold enableWatch
  (repeat' split) <;> exact h.of_eq (by simp [acceptedWith, refusedWith])

theorem memStart_served : (memStart s).1.transmitBusy := by
  unfold memStart
  split <;> exact h.of_eq (by simp [acceptedWith, refusedWith])

theorem memHold_served : (memHold s).1.transmitBusy := by
  unfold memHold
  (repeat' split) <;> exact h.of_eq (by simp [acceptedWith, refusedWith])

/-- RESET-CAPTURE empties the notice slot or leaves it (R146). -/
theorem resetCapture_served : (resetCapture s).1.transmitBusy := by
  obtain ⟨-, -, -, -, notices⟩ := clearAndMark_tables s
  have response : (clearAndMark s).offeredResponse = s.offeredResponse := offeredResponse_congr (by simp)
  rw [resetCapture_eq]
  have notice : s.notices.noticeSlot = none → (clearAndMark s).notices.noticeSlot = none := fun empty => by
    rw [notices]
    simp [clearCapture, NoticeUnit.resetCapture, empty]
  exact State.transmitBusy.built (h.of_offers ⟨by simp, by simp, by simp, notice, fun silent => response.trans silent⟩)

theorem realign_served (p : Port) : (realign p s).1.transmitBusy := by
  have realigned : (s.setPort p (s.port p).realigned).transmitBusy := setPort_served h p nofun
  unfold realign acceptedWith
  dsimp only
  split
  · exact realigned.raised
  · exact realigned

/-! ## Every command -/

/-- A response given is a candidate at a decision point, whatever context it is put into (R160). -/
theorem settleAnswer_served (i : Fin 4) (q : Taken) (status : Status) (words : List MgmtWord) :
    (settle i q (.answer status words) s).transmitBusy :=
  dChoose_served h.2

theorem executeAnswer_served (form : Request → Bool) (run : Execution) (answers : ∀ i r, Answers s (run i r s))
    (owner : ∀ i r, (run i r s).1.transmitBusy) : (execute form run s).transmitBusy := by
  rcases execute_cases form run s with same | ⟨i, q, -, -, ⟨status, e⟩ | ⟨-, e⟩⟩
  · rwa [same]
  · rw [e]
    exact settleAnswer_served h i q status []
  · obtain ⟨-, status, words, reply⟩ := answers i q.request
    rw [e, reply]
    exact settleAnswer_served (owner i q.request) i q status words

/-- A COMMAND row with an argument. -/
theorem executeArg_served {α : Type} (form : Request → Bool) (take : MgmtWord → Option α) (run : α → State → State × Reply)
    (answers : ∀ a, Answers s (run a s)) (owner : ∀ a, (run a s).1.transmitBusy) :
    (execute form (withArg take run) s).transmitBusy := by
  refine executeAnswer_served h form _ (fun i r => ?_) fun i r => ?_
  · unfold withArg
    split
    · exact answers _
    · exact answers_refused _ s
  · unfold withArg
    split
    · exact owner _
    · exact h

/-- FETCH answers a refusal, or leaves its context READING in the place it had (R112, R171). -/
theorem executeFetch_served (form : Request → Bool) : (execute form runFetch s).transmitBusy := by
  rcases execute_cases form runFetch s with same | ⟨i, q, next, -, ⟨status, e⟩ | ⟨-, e⟩⟩
  · rwa [same]
  · rw [e]
    exact settleAnswer_served h i q status []
  · obtain ⟨waiting, -⟩ := nextExecution_waiting next
    have reads : OffersNoMore s (s.setContext i (.reading q)) :=
      ⟨id, id, rfl, id, setContext_offersNothing rfl nofun fun _ => by rw [waiting]; rfl⟩
    rw [e]
    unfold runFetch
    split
    · exact settleAnswer_served h i q _ []
    · exact (h.of_offers reads).of_eq (by simp [settle, placeRead, State.setContext])

theorem exec_served {t : State} (c : Instr) (runs : exec c s = .next t) : t.transmitBusy := by
  cases c with
  | powerOnReset straps =>
    cases runs
    exact powerOn_transmitBusy straps s.free s.pending
  | tapValue p symbols =>
    cases runs
    split
    · exact foldl_inv State.transmitBusy _ (fun _ y busy => receiveSymbol_served busy p y) symbols s h
    · exact h
  | lockedSymbol | receiverUp | tapProvedFalse | oversizeFrame | lossOfAlignment | frameCompletedD =>
    cases runs
    split
    · exact receiveSymbol_served h _ _
    · exact h
  | symbolReceived p symbol =>
    cases runs
    exact receiveSymbol_served h p symbol
  | frameCompletedU =>
    cases runs
    split
    · exact finishHanding_served (receiveSymbol_served h .u .endFrame)
    · exact takeTurn_served h
  | pauseEnd | holdoffExpiry =>
    cases runs
    split
    · exact ticks_served _ s h
    · exact h
  | read =>
    cases runs
    refine executeAnswer_served h _ _ (fun i r => answers_runRead i r s) fun i r => ?_
    unfold runRead
    split <;> exact h
  | fetch =>
    cases runs
    exact executeFetch_served h _
  | write | writeChannelMap | writeWatch | writeSlot | writeTimingSet | writeCountTable | writeEnableSet | writeOrderList
  | writeExpressClass | writeCheckMode =>
    cases runs
    exact executeAnswer_served h _ _ (fun i r => answers_runWrite i r s) (runWrite_served h)
  | armSlot =>
    cases runs
    exact executeArg_served h _ _ _ (fun i => answers_armSlot i s) (armSlot_served h)
  | disarmSlot =>
    cases runs
    exact executeArg_served h _ _ _ (fun i => answers_disarmSlot i s) (disarmSlot_served h)
  | forceTrigger =>
    cases runs
    exact executeArg_served h _ _ _ (fun i => answers_forceTrigger i s) fun i => trigger_served h i 32 0
  | releaseHalf =>
    cases runs
    exact executeArg_served h _ _ _ (fun a => answers_releaseHalf a.1 a.2 s) fun a => releaseHalf_served h a.1 a.2
  | enableWatch =>
    cases runs
    exact executeArg_served h _ _ _ (fun w => answers_enableWatch w s) (enableWatch_served h)
  | disableWatch =>
    cases runs
    exact executeArg_served h _ _ _ (fun w => answers_disableWatch w s) fun _ => h.of_eq ⟨rfl, rfl, rfl, rfl, rfl⟩
  | gate =>
    cases runs
    exact executeArg_served h _ _ _ (fun isOpen => answers_setGate isOpen s) fun _ => h.of_eq ⟨rfl, rfl, rfl, rfl, rfl⟩
  | ackNotice =>
    cases runs
    exact executeArg_served h _ _ _ (fun a => answers_ackNotice a.1 a.2 s) fun _ =>
      State.transmitBusy.built (h.of_eq ⟨rfl, rfl, rfl, rfl, rfl⟩)
  | realign =>
    cases runs
    exact executeArg_served h _ _ _ (fun p => answers_realign p s) (realign_served h)
  | clearFault =>
    cases runs
    exact executeAnswer_served h _ _ (fun _ _ => answers_clearFaultRecord s) fun _ _ =>
      h.of_offers (offersNoMore_of_eq ⟨rfl, rfl, rfl, rfl, rfl, rfl⟩)
  | memStart =>
    cases runs
    exact executeAnswer_served h _ _ (fun _ _ => answers_memStart s) fun _ _ => memStart_served h
  | memHold =>
    cases runs
    exact executeAnswer_served h _ _ (fun _ _ => answers_memHold s) fun _ _ => memHold_served h
  | resetCapture =>
    cases runs
    exact executeAnswer_served h _ _ (fun _ _ => answers_resetCapture s) fun _ _ => resetCapture_served h
  | burstEnd =>
    cases runs
    split
    · exact endBurst_served h _
    · exact h
  | initSequenceEnd =>
    cases runs
    split
    · have ready : (raise classState srcMemoryReady (enterReady .ready s)).transmitBusy :=
        h.raisedAfter ⟨rfl, rfl, rfl, rfl, rfl⟩
      exact ready.of_eq (by simp)
    · exact h
  | fetchReadEnd =>
    cases runs
    split
    · exact endRead_served h _ _
    · exact h
  | refreshDue | refreshEnd | countTableWriteEnd | closingOperationEnd | exitSequenceEnd =>
    cases runs
    refine h.of_eq ?_
    (repeat' split) <;> simp
  | dFrameSent =>
    cases runs
    split
    · exact dSent_served h _
    · exact h
  | uFrameSent =>
    cases runs
    split
    · exact uChoose_served h.1
    · exact h

end

end Sys2Proof.Machine

open Sys2Proof Sys2Proof.Machine

/-- Settles O16: whatever brings a candidate to light ends in a decision point of its transmitter, and nothing else takes a receiver to
UP or a frame off the line. -/
theorem stepLeavesNoFrameAtAnIdleTransmitter : Obligations.StepLeavesNoFrameAtAnIdleTransmitter := by
  intro s t busy h
  cases pending : s.pending with
  | nil =>
    rw [step_of_empty pending] at h
    cases h
    exact tick_served busy
  | cons c rest =>
    have runs : step s = exec c (s.withQueue rest) := by simp [step, pending]
    exact exec_served (s := s.withQueue rest) (busy.of_eq ⟨rfl, rfl, rfl, rfl, rfl⟩) c (runs ▸ h)
end

section
/-! SUPPORT. The receivers: what a symbol does in each state of a receiver, said once (R149 to R155, R163). -/

namespace Sys2Proof.Machine

/-! ## Reception by the receiver's state -/

/-- An earlier frame is settled by an END inside a frame at the U port alone. -/
theorem settleEarlier_of_noEnd {s : State} {p : Port} {y : Symbol} (noEnd : p = .u → y = .endFrame → s.frameOpen .u = false) :
    settleEarlier p y s = s :=
  if_neg fun ⟨u, ends, isOpen⟩ => by rw [noEnd u ends] at isOpen; cases isOpen

theorem receiveSymbol_of_seek {s : State} {p : Port} (y : Symbol) (seek : (s.port p).receiver = .seek) :
    receiveSymbol p y s = seekSymbol p y s := by
  simp [receiveSymbol, seek]

theorem receiveSymbol_of_locked {s : State} {p : Port} (y : Symbol) (locked : (s.port p).receiver = .locked) :
    receiveSymbol p y s = lockedSymbol p y s := by
  simp [receiveSymbol, locked]

theorem receiveSymbol_of_up {s : State} {p : Port} {y : Symbol} (up : (s.port p).receiver = .up)
    (noEnd : p = .u → y = .endFrame → s.frameOpen .u = false) : receiveSymbol p y s = upSymbol p y s := by
  simp [receiveSymbol, up, settleEarlier_of_noEnd noEnd]

/-! ## Sources raised about a port -/

@[simp] theorem port_raise (c : Fin 8) (n : Fin 32) (s : State) (p : Port) : (raise c n s).port p = s.port p := by
  cases p <;> simp [State.port]

/-- A port is changed and a source of its class raised about it. -/
theorem raise_setPort_only {c : Fin 8} {n : Fin 32} (s : State) (p : Port) (x : PortState)
    (own : sourceBit n &&& classSources c = sourceBit n) :
    RaisedOnly c n (s.setPort p ((raise c n (s.setPort p x)).port p)) (raise c n (s.setPort p x)) := by
  have port : (raise c n (s.setPort p x)).port p = x := by simp
  rw [port]
  exact raise_only c n (s.setPort p x) own

/-! ## Taps (R149, R150) -/

theorem isMarker_iff (value : Bool) (y : Symbol) : isMarker value y = true ↔ ∃ lock, y = .train value lock := by
  cases y <;> simp [isMarker]

theorem tapValueOf_eq_zero_iff (observed : List Symbol) :
    tapValueOf observed = .zero ↔ ∀ y ∈ observed, ∃ lock, y = .train false lock := by
  simp only [← isMarker_iff, ← List.all_eq_true]
  unfold tapValueOf
  (repeat' split) <;> simp_all

/-- No symbol is TRAIN with both phase markers. -/
theorem tapValueOf_eq_one_iff {observed : List Symbol} (some_seen : observed ≠ []) :
    tapValueOf observed = .one ↔ ∀ y ∈ observed, ∃ lock, y = .train true lock := by
  obtain ⟨y, rest, rfl⟩ := List.exists_cons_of_ne_nil some_seen
  unfold tapValueOf
  split
  · rename_i zero
    obtain ⟨lock, first⟩ := (isMarker_iff false y).mp (List.all_eq_true.mp zero y (List.mem_cons_self ..))
    simp [first]
  · simp only [← isMarker_iff, ← List.all_eq_true]
    split <;> simp_all

section
variable {s : State} {p : Port} {x : PortState}

/-- A tap is judged by the port as it now is, not by what stood in the state before. -/
theorem judgeTap_setPort (s : State) (p : Port) (x y : PortState) : judgeTap p x (s.setPort p y) = judgeTap p x s := by
  cases p <;> simp [judgeTap, failSweep]

theorem judgeTap_of_lock (lock : 1 ≤ x.tap.toNat ∧ tapValueOf x.observed = .one ∧ x.previous = some .zero) :
    judgeTap p x s = s.setPort p x.lockedOn :=
  if_pos lock

theorem judgeTap_of_advance (noLock : ¬ (1 ≤ x.tap.toNat ∧ tapValueOf x.observed = .one ∧ x.previous = some .zero))
    (more : x.tap.toNat < 63) :
    judgeTap p x s = s.setPort p { x with previous := some (tapValueOf x.observed), tap := x.tap + 1, observed := [] } := by
  simp only [judgeTap, if_neg noLock, if_pos more]

theorem judgeTap_of_last (noLock : ¬ (1 ≤ x.tap.toNat ∧ tapValueOf x.observed = .one ∧ x.previous = some .zero))
    (last : x.tap.toNat = 63) :
    judgeTap p x s = failSweep p { x with previous := some (tapValueOf x.observed) } s := by
  have noMore : ¬ x.tap.toNat < 63 := by omega
  simp only [judgeTap, if_neg noLock, if_neg noMore]

/-- The symbols that complete the 16 at a tap are observed one by one, and the last has the tap judged. -/
theorem foldl_receiveSymbol_of_sweep (p : Port) (symbols : List Symbol) (s : State) (seek : (s.port p).receiver = .seek)
    (sweeping : (s.port p).sweep = .sweeping) (some_left : symbols ≠ [])
    (complete : (s.port p).observed.length + symbols.length = 16) :
    symbols.foldl (fun acc y => receiveSymbol p y acc) s =
      judgeTap p { s.port p with observed := (s.port p).observed ++ symbols } s := by
  induction symbols generalizing s with
  | nil => exact absurd rfl some_left
  | cons y rest ih =>
    rw [List.length_cons] at complete
    rw [List.foldl_cons, receiveSymbol_of_seek y seek]
    by_cases last : rest = []
    · subst last
      simp only [List.length_nil] at complete
      simp [seekSymbol, sweeping, Config.tapSymbols, show (s.port p).observed.length = 15 by omega]
    · have more : (s.port p).observed.length + 1 < 16 := by
        have := List.length_pos_iff.mpr last
        omega
      have observed : seekSymbol p y s = s.setPort p { s.port p with observed := (s.port p).observed ++ [y] } := by
        simp [seekSymbol, sweeping, Config.tapSymbols, more]
      rw [observed, ih _ (by simpa using seek) (by simpa using sweeping) last (by simp; omega), judgeTap_setPort]
      simp

end

/-! ## LOCKED (R151) -/

section
variable {s : State} {p : Port} {y : Symbol}

theorem lockedSymbol_counts (valid : (lockedRuns y (s.port p).validRun (s.port p).invalidRun).1 < 8)
    (invalid : (lockedRuns y (s.port p).validRun (s.port p).invalidRun).2 < 16) :
    lockedSymbol p y s = s.setPort p { s.port p with
      validRun := (lockedRuns y (s.port p).validRun (s.port p).invalidRun).1
      invalidRun := (lockedRuns y (s.port p).validRun (s.port p).invalidRun).2 } := by
  simp [lockedSymbol, Config.validRunLimit, Config.invalidRunLimit, Nat.not_le.mpr valid, Nat.not_le.mpr invalid]

/-- A symbol that counts as valid lengthens the valid run and ends the invalid one. -/
theorem lockedRuns_of_valid (validRun invalidRun : Nat) (valid : y.countsValid = true) :
    lockedRuns y validRun invalidRun = (validRun + 1, 0) := by
  cases y with
  | train marker lock => cases lock <;> simp_all [Symbol.countsValid, lockedRuns]
  | _ => simp_all [Symbol.countsValid, lockedRuns]

/-- What the entry to UP leaves (R130, R151). -/
theorem goUp_spec (s : State) (p : Port) (x : PortState) :
    (goUp p x s).port p = { x with receiver := .up, failures := 0, invalidRun := 0 } ∧
      (goUp p x s).notices.pending = s.notices.pending.set classState
        (s.notices.pending[classState] ||| (sourceBit (srcPortUp p) &&& classSources classState)) ∧
      (goUp p x s).link.u2d = s.link.u2d ∧ (goUp p x s).link.d2u = s.link.d2u ∧
      { (goUp p x s).setPort p (s.port p) with notices := s.notices, link := s.link } = s := by
  cases p with
  | u =>
    refine ⟨by simp [goUp, chooseAt, State.port], by simp [goUp], by simp [goUp, chooseAt], by simp [goUp, chooseAt], ?_⟩
    apply State.ext_fields <;> simp [goUp, chooseAt, State.port]
  | d =>
    refine ⟨by simp [goUp, chooseAt, State.port], by simp [goUp], by simp [goUp, chooseAt], by simp [goUp, chooseAt], ?_⟩
    apply State.ext_fields <;> simp [goUp, chooseAt, State.port]

end

/-! ## UP (R152, R154) -/

section
variable {s : State} {p : Port} {y : Symbol}

/-- A symbol that does not lose the alignment goes on to the frame under reception. -/
theorem upSymbol_assembles (run : upRun y (s.port p).invalidRun < 16) :
    upSymbol p y s = assemble p y (s.setPort p { s.port p with invalidRun := upRun y (s.port p).invalidRun }) := by
  simp [upSymbol, Config.invalidRunLimit, Nat.not_le.mpr run]

/-- The sixteenth TRAIN or invalid symbol in a row loses it (R152). -/
theorem upSymbol_loses (run : 16 ≤ upRun y (s.port p).invalidRun) :
    upSymbol p y s = raise classState (srcPortDown p)
      (s.setPort p { s.port p with invalidRun := upRun y (s.port p).invalidRun }.dropped) := by
  simp [upSymbol, Config.invalidRunLimit, run, loseAlignment]

theorem upRun_of_loss (invalidRun : Nat) (loss : y.countsLoss = true) : upRun y invalidRun = invalidRun + 1 := by
  cases y <;> simp_all [Symbol.countsLoss, upRun]

/-- SYMBOL_RECEIVED at an UP receiver, short of a loss and of an END inside a frame. -/
theorem exec_symbolReceived_assembles (up : (s.port p).receiver = .up)
    (noEnd : p = .u → y = .endFrame → s.frameOpen .u = false) (run : upRun y (s.port p).invalidRun < 16) :
    exec (.symbolReceived p y) s =
      .next (assemble p y (s.setPort p { s.port p with invalidRun := upRun y (s.port p).invalidRun })) := by
  rw [← upSymbol_assembles run, ← receiveSymbol_of_up up noEnd]
  rfl

theorem frameOpen_of_noFrame (none : (s.port p).frame = none) : s.frameOpen p = false := by
  unfold State.frameOpen
  rw [none]
  cases (s.port p).receiver <;> rfl

theorem frameOpen_of_oversize {octets : Frame} (frame : (s.port p).frame = some ⟨octets, true⟩) : s.frameOpen p = false := by
  unfold State.frameOpen
  rw [frame]
  cases (s.port p).receiver <;> rfl

end

end Sys2Proof.Machine
end

section
/-! SUPPORT. TapValueLocksAdvancesOrFails: the sixteenth symbol at a tap, and what a failed sweep leaves at each port (R149, R150). -/

namespace Sys2Proof.Machine

/-- The port with further symbols observed at its tap. -/
def PortState.seen (x : PortState) (symbols : List Symbol) : PortState :=
  { x with observed := x.observed ++ symbols }

/-- TAP_VALUE with the symbols that complete the 16. -/
theorem exec_tapValue_judges {s : State} {p : Port} {symbols : List Symbol} (seek : (s.port p).receiver = .seek)
    (sweeping : (s.port p).sweep = .sweeping) (some_left : symbols ≠ [])
    (complete : (s.port p).observed.length + symbols.length = 16) :
    exec (.tapValue p symbols) s = .next (judgeTap p ((s.port p).seen symbols) s) := by
  have awaits : s.awaitsTap p symbols.length = true := by
    simp [State.awaitsTap, seek, sweeping, complete, Config.tapSymbols, Nat.one_le_iff_ne_zero, some_left]
  rw [PortState.seen, ← foldl_receiveSymbol_of_sweep p symbols s seek sweeping some_left complete]
  simp [exec, execTapValue, awaits]

/-- The U port's first and second failure. -/
theorem failSweep_u_pauses {s : State} {x : PortState} (few : x.failures < 2) :
    failSweep .u x s = s.setPort .u { x with
      failures := x.failures + 1, tap := 0, sweep := .pausing 1000, observed := [], previous := none } := by
  have count : failureCount .u x.failures = x.failures + 1 := by
    simp only [failureCount, satSucc]
    omega
  have notYet : ¬ 3 ≤ x.failures + 1 := by omega
  simp [failSweep, count, notYet, PortState.paused, Config.sweepPause]

/-- Its third. -/
theorem failSweep_u_fails {s : State} {x : PortState} (third : 2 ≤ x.failures) :
    failSweep .u x s =
      raise classState srcUFailed (s.setPort .u { x with failures := 3, receiver := .failed, observed := [] }) := by
  have count : failureCount .u x.failures = 3 := by
    simp only [failureCount, satSucc]
    omega
  simp [failSweep, count]

end Sys2Proof.Machine

open Sys2Proof Sys2Proof.Machine

/-- Settles O18: the tap is judged on all 16 symbols, and each branch of the judgement has its equation. -/
theorem tapValueLocksAdvancesOrFails : Obligations.TapValueLocksAdvancesOrFails := by
  intro s p symbols seek sweeping some_left complete
  have complete' : (s.port p).observed.length + symbols.length = 16 := by simpa using complete
  have seen : (s.port p).observed ++ symbols ≠ [] := List.append_ne_nil_of_right_ne_nil _ some_left
  refine ⟨tapValueOf ((s.port p).observed ++ symbols), tapValueOf_eq_zero_iff _, tapValueOf_eq_one_iff seen, _,
    exec_tapValue_judges seek sweeping some_left complete', judgeTap_of_lock (x := (s.port p).seen symbols),
    judgeTap_of_advance (x := (s.port p).seen symbols), ?_, ?_, ?_⟩
  · rintro noLock last rfl
    exact judgeTap_of_last (x := (s.port .d).seen symbols) noLock last
  · rintro noLock last rfl few
    exact (judgeTap_of_last (x := (s.port .u).seen symbols) noLock last).trans (failSweep_u_pauses (by exact few))
  · rintro noLock last rfl third
    rw [(judgeTap_of_last (x := (s.port .u).seen symbols) noLock last).trans (failSweep_u_fails (by exact third))]
    exact ⟨by simp [PortState.seen], raise_setPort_only s .u _ (by decide)⟩
end

section
/-! SUPPORT. LockedReceiverCountsItsRuns: R151's table, and the sixteenth invalid symbol. -/

namespace Sys2Proof.Machine

theorem exec_lockedSymbol_counts {s : State} {p : Port} {y : Symbol} (locked : (s.port p).receiver = .locked)
    (valid : (lockedRuns y (s.port p).validRun (s.port p).invalidRun).1 < 8)
    (invalid : (lockedRuns y (s.port p).validRun (s.port p).invalidRun).2 < 16) :
    exec (.lockedSymbol p y) s = .next (s.setPort p { s.port p with
      validRun := (lockedRuns y (s.port p).validRun (s.port p).invalidRun).1
      invalidRun := (lockedRuns y (s.port p).validRun (s.port p).invalidRun).2 }) := by
  rw [← lockedSymbol_counts valid invalid, ← receiveSymbol_of_locked y locked]
  simp [exec, execLockedSymbol, locked]

/-- An invalid symbol at invalid run 15 begins a new sweep. -/
theorem exec_tapProvedFalse_sweeps {s : State} {p : Port} (locked : (s.port p).receiver = .locked)
    (run : (s.port p).invalidRun = 15) :
    exec (.tapProvedFalse p) s =
      .next (s.setPort p { s.port p with validRun := 0, invalidRun := 16 }.newSweep) := by
  have proves : s.provesFalse p = true := by simp [State.provesFalse, locked, run, Config.invalidRunLimit]
  simp [exec, execTapProvedFalse, proves, receiveSymbol_of_locked _ locked, lockedSymbol, lockedRuns, run, Config.validRunLimit,
    Config.invalidRunLimit]

end Sys2Proof.Machine

open Sys2Proof Sys2Proof.Machine

/-- Settles O20: each row of R151's table through the runs it gives. -/
theorem lockedReceiverCountsItsRuns : Obligations.LockedReceiverCountsItsRuns := by
  intro s p locked valid invalid x
  refine ⟨fun y counts short => ?_, fun m => ?_, fun y frames => ?_, fun short => ?_, fun last => ?_⟩
  · have runs : lockedRuns y x.validRun x.invalidRun = (x.validRun + 1, 0) :=
      lockedRuns_of_valid _ _ (by rcases counts with rfl | ⟨o, rfl⟩ | ⟨m, rfl⟩ <;> rfl)
    rw [exec_lockedSymbol_counts locked (by rw [runs]; exact Nat.succ_lt_succ short) (by rw [runs]; exact Nat.succ_pos 15), runs]
  · exact exec_lockedSymbol_counts locked (y := .train m false) (by simp [lockedRuns]) (by simp [lockedRuns])
  · rcases frames with rfl | rfl <;> exact exec_lockedSymbol_counts locked valid (by simp [lockedRuns])
  · exact exec_lockedSymbol_counts locked (y := .invalid) (by simp [lockedRuns]) (Nat.succ_lt_succ short)
  · exact ⟨_, exec_tapProvedFalse_sweeps locked last, by simp [PortState.newSweep, x]⟩
end

section
/-! SUPPORT. EighthValidSymbolBringsThePortUp: RECEIVER_UP at valid run 7 (R130, R151). -/

namespace Sys2Proof.Machine

theorem exec_receiverUp_goes {s : State} {p : Port} {y : Symbol} (locked : (s.port p).receiver = .locked)
    (run : (s.port p).validRun = 7) (valid : y.countsValid = true) :
    exec (.receiverUp p y) s = .next (goUp p { s.port p with validRun := 8, invalidRun := 0 } s) := by
  have runs := lockedRuns_of_valid (s.port p).validRun (s.port p).invalidRun valid
  rw [run] at runs
  have comes : s.comesUp p y = true := by simp [State.comesUp, locked, runs, run, Config.validRunLimit]
  simp [exec, execReceiverUp, comes, receiveSymbol_of_locked _ locked, lockedSymbol, runs, run, Config.validRunLimit]

end Sys2Proof.Machine

open Sys2Proof Sys2Proof.Machine

/-- Settles O21: the valid run reaches 8 and the receiver goes UP. -/
theorem eighthValidSymbolBringsThePortUp : Obligations.EighthValidSymbolBringsThePortUp := by
  intro s p y locked run valid
  obtain ⟨port, pending, u2d, d2u, frame⟩ := goUp_spec s p { s.port p with validRun := 8, invalidRun := 0 }
  refine ⟨_, exec_receiverUp_goes locked run valid, port, pending.trans ?_, u2d, d2u, frame⟩
  cases p <;> rfl
end

section
/-! SUPPORT. UpReceiverAssemblesFrames: the symbols of R152 and R154 at an UP receiver. -/

open Sys2Proof Sys2Proof.Machine

/-- Settles O22: each symbol moves the invalid run and then the frame under reception. -/
theorem upReceiverAssemblesFrames : Obligations.UpReceiverAssemblesFrames := by
  intro s p up x
  refine ⟨?_, fun o octets frame short => ?_, ?_, fun y loss short => ?_, fun y counts none => ?_⟩
  · rw [exec_symbolReceived_assembles (y := .startFrame) up nofun (by simp [upRun])]
    simp [assemble, upRun, x]
  · rw [exec_symbolReceived_assembles (y := .data o) up nofun (by simp [upRun])]
    simp [assemble, frameOctet, upRun, x, show (s.port p).frame = _ from frame, Config.frameLimit, short]
  · rw [exec_symbolReceived_assembles (y := .idle) up nofun (by simp [upRun])]
    simp [assemble, upRun, x]
  · have counted : upRun y x.invalidRun = x.invalidRun + 1 :=
      upRun_of_loss _ (by rcases loss with ⟨m, l, rfl⟩ | rfl <;> rfl)
    rw [exec_symbolReceived_assembles up (by rcases loss with ⟨m, l, rfl⟩ | rfl <;> nofun) (by rw [counted]; omega), counted]
    rcases loss with ⟨m, l, rfl⟩ | rfl <;> simp [assemble, x]
  · have noFrame : (s.port p).frame = Option.none := none
    rcases counts with ⟨o, rfl⟩ | rfl
    · rw [exec_symbolReceived_assembles (y := .data o) up nofun (by simp [upRun])]
      simp [assemble, upRun, x, noFrame]
    · rw [exec_symbolReceived_assembles up (fun u _ => frameOpen_of_noFrame (u ▸ noFrame)) (by simp [upRun])]
      simp [assemble, upRun, x, noFrame]
end

section
/-! SUPPORT. OversizeFrameIsMarkedAndDiscarded: the 79th octet and what follows it (R155). -/

namespace Sys2Proof.Machine

/-- The 79th octet is not kept: the frame is marked and the port's FAULT source raised. -/
theorem exec_oversizeFrame_marks {s : State} {p : Port} {octets : Frame} (o : Octet) (up : (s.port p).receiver = .up)
    (frame : (s.port p).frame = some ⟨octets, false⟩) (full : octets.length = 78) :
    exec (.oversizeFrame p o) s = .next (raise classFault (srcOversize p)
      (s.setPort p { s.port p with invalidRun := 0, frame := some ⟨octets, true⟩ })) := by
  have atLimit : s.frameAtLimit p = true := by simp [State.frameAtLimit, up, frame, full, Config.frameLimit]
  have received : receiveSymbol p (.data o) s = upSymbol p (.data o) s := receiveSymbol_of_up up nofun
  rw [upSymbol_assembles (by simp [upRun])] at received
  simp [exec, execOversizeFrame, atLimit, received, assemble, frameOctet, upRun, frame, full, Config.frameLimit]

end Sys2Proof.Machine

open Sys2Proof Sys2Proof.Machine

/-- Settles O23: the mark, and the two symbols that find it set. -/
theorem oversizeFrameIsMarkedAndDiscarded : Obligations.OversizeFrameIsMarkedAndDiscarded := by
  intro s p octets up
  refine ⟨fun o frame full => ⟨_, exec_oversizeFrame_marks o up frame full, by simp, ?_⟩, fun frame => ⟨fun o => ?_, ?_⟩⟩
  · cases p with
    | u => exact raise_setPort_only s .u _ (by decide)
    | d => exact raise_setPort_only s .d _ (by decide)
  · rw [exec_symbolReceived_assembles (y := .data o) up nofun (by simp [upRun])]
    simp [assemble, frameOctet, upRun, frame]
  · rw [exec_symbolReceived_assembles up (fun u _ => frameOpen_of_oversize (u ▸ frame)) (by simp [upRun])]
    simp [assemble, frameEnd, upRun, frame]
end

section
/-! SUPPORT. LossAndRealignBeginANewSweep: the sixteenth TRAIN or invalid symbol in a row, and REALIGN (R152, R163, R177). -/

namespace Sys2Proof.Machine

/-- LOSS_OF_ALIGNMENT at invalid run 15. -/
theorem exec_lossOfAlignment_loses {s : State} {p : Port} {y : Symbol} (up : (s.port p).receiver = .up)
    (run : (s.port p).invalidRun = 15) (loss : y.countsLoss = true) :
    exec (.lossOfAlignment p y) s =
      .next (raise classState (srcPortDown p) (s.setPort p { s.port p with invalidRun := 16 }.dropped)) := by
  have counted : upRun y (s.port p).invalidRun = 16 := by rw [upRun_of_loss _ loss, run]
  have loses : s.losesAlignment p y = true := by simp [State.losesAlignment, up, counted, Config.invalidRunLimit]
  have noEnd : y ≠ .endFrame := by
    rintro rfl
    cases loss
  have received : receiveSymbol p y s = upSymbol p y s := receiveSymbol_of_up up fun _ ends => absurd ends noEnd
  rw [upSymbol_loses (by omega), counted] at received
  simp [exec, execLossOfAlignment, loses, received]

/-! ## REALIGN (R163, R177) -/

theorem portArg_of_large {a : MgmtWord} (h : 2 ≤ a.toNat % 256) : portArg a = none := by
  unfold portArg
  rw [bits_byte]
  split
  · omega
  · omega
  · rfl

theorem portArg_of_port {a : MgmtWord} (p : Port) (h : a.toNat % 256 = match p with | .u => 0 | .d => 1) :
    portArg a = some p := by
  unfold portArg
  rw [bits_byte]
  cases p with
  | u =>
    rw [show a.toNat % 256 = 0 from h]
    rfl
  | d =>
    rw [show a.toNat % 256 = 1 from h]
    rfl

/-- A port leaves UP with its port-down source raised, and any other without. -/
theorem realign_eq (p : Port) (s : State) :
    realign p s = (if (s.port p).receiver = .up then raise classState (srcPortDown p) (s.setPort p (s.port p).realigned)
      else s.setPort p (s.port p).realigned, .answer .ok []) :=
  rfl

end Sys2Proof.Machine

open Sys2Proof Sys2Proof.Machine

/-- Settles O24: a loss and a REALIGN each leave the port for a new sweep, and raise the source of a port that was UP. -/
theorem lossAndRealignBeginANewSweep : Obligations.LossAndRealignBeginANewSweep := by
  have raises : ∀ (s : State) (p : Port) (x : PortState),
      let t := raise classState (srcPortDown p) (s.setPort p x)
      RaisedOnly classState (match p with | .u => 1 | .d => 4) (s.setPort p (t.port p)) t := fun s p x => by
    cases p with
    | u => exact raise_setPort_only s .u x (by decide)
    | d => exact raise_setPort_only s .d x (by decide)
  refine ⟨fun s p y up run loss => ⟨_, exec_lossOfAlignment_loses up run loss, ?_⟩,
    fun s i q runs => ⟨fun large => ?_, fun p own => ?_⟩⟩
  · refine ⟨?_, ?_, ?_, ?_, ?_, ?_, ?_, raises s p _⟩ <;> simp [PortState.dropped, PortState.newSweep]
  · refine ⟨_, rfl, execute_answers runs.1 (asksFor_of_runsCommand runs) ?_⟩
    simp only [withArg, portArg_of_large large]
    rfl
  · refine ⟨(realign p s).1, ⟨_, rfl, execute_answers runs.1 (asksFor_of_runsCommand runs) ?_⟩, ?_⟩
    · simp only [withArg, portArg_of_port p own]
      rfl
    · rw [realign_eq]
      refine ⟨?_, fun up => ?_, fun down => ?_⟩
      · dsimp only
        split <;> simp [PortState.realigned, PortState.dropped, PortState.newSweep]
      · simp only [if_pos up]
        exact raises s p _
      · simp only [if_neg down, port_setPort]
end

section
/-! SUPPORT. A frame completed at the D port: END inside a frame, the routing of R158, and what the endpoint makes of a request (R158,
R159, R165 to R167, R169, R170). -/

namespace Sys2Proof.Machine

/-! ## END inside a frame at the D port (R154, R158) -/

/-- The D port's frame is taken out of reception by its END. -/
def State.dFrameClosed (s : State) : State :=
  { s with dPort := { s.dPort with invalidRun := 0, frame := none } }

theorem exec_frameCompletedD {s : State} {f : Frame} (up : s.dPort.receiver = .up) (frame : s.dPort.frame = some ⟨f, false⟩) :
    exec .frameCompletedD s = .next (routeD f s.dFrameClosed) := by
  have isOpen : s.frameOpen .d = true := by simp [State.frameOpen, State.port, up, frame]
  have received : receiveSymbol .d .endFrame s = upSymbol .d .endFrame s := receiveSymbol_of_up (by exact up) nofun
  rw [upSymbol_assembles (by simp [upRun])] at received
  simp [exec, execFrameCompletedD, isOpen, received, assemble, frameEnd, route, upRun, State.port, State.setPort, frame,
    State.dFrameClosed]

theorem isRequest_iff (f : Frame) : isRequest f = true ↔ goodCrc f = true ∧ frameKind f = 2 ∧ 14 ≤ f.length := by
  simp [isRequest, and_assoc]

/-- A frame that is no request for this part goes upstream alone. -/
theorem routeD_of_other {s : State} {f : Frame}
    (other : ¬ (goodCrc f = true ∧ frameKind f = 2 ∧ 14 ≤ f.length ∧
      (frameDestination f = s.ep.nodeAddress ∨ frameDestination f = 63))) : routeD f s = forwardD2U f s := by
  have notTaken : takenByEndpoint s.ep.nodeAddress f = false := by
    rw [← Bool.not_eq_true]
    simpa [takenByEndpoint, isRequest_iff, Config.broadcastAddress, and_assoc] using other
  have offered : offeredUpstream s.ep.nodeAddress f = true := by
    unfold takenByEndpoint at notTaken
    unfold offeredUpstream
    cases request : isRequest f <;> simp_all
  simp [routeD, notTaken, offered]

/-- A broadcast is taken by the endpoint first and then goes upstream. -/
theorem routeD_of_broadcast {s : State} {f : Frame} (request : isRequest f = true) (all : frameDestination f = 63) :
    routeD f s = forwardD2U f (takeRequest (Request.ofFrame f) s) := by
  simp [routeD, takenByEndpoint, offeredUpstream, request, all, Config.broadcastAddress]

/-- A request to the node address is the endpoint's alone. -/
theorem routeD_of_addressed {s : State} {f : Frame} (request : isRequest f = true) (own : frameDestination f = s.ep.nodeAddress)
    (single : s.ep.nodeAddress ≠ 63) : routeD f s = takeRequest (Request.ofFrame f) s := by
  simp [routeD, takenByEndpoint, offeredUpstream, request, own, show s.ep.nodeAddress ≠ Config.broadcastAddress from single]

/-- The destination of a request is that of its frame. -/
theorem destination_ofFrame {f : Frame} (long : 14 ≤ f.length) : (Request.ofFrame f).destination = frameDestination f := by
  have second : octetAt (f.take (f.length - 2)) 1 = octetAt f 1 := by
    simp only [octetAt, List.getD_eq_getElem?_getD, List.getElem?_take_of_lt (show 1 < f.length - 2 by omega)]
  simp only [Request.destination, Request.ofFrame, frameDestination, second]

theorem broadcast_ofFrame {f : Frame} (long : 14 ≤ f.length) :
    (Request.ofFrame f).broadcast = true ↔ frameDestination f = 63 := by
  simp [Request.broadcast, destination_ofFrame long, Config.broadcastAddress]

/-! ## The D-to-U queue (R159) -/

theorem forwardD2U_of_room {s : State} (f : Frame) (room : s.link.d2u.length < 8) :
    (forwardD2U f s).link.d2u = s.link.d2u ++ [f] ∧ { forwardD2U f s with link := s.link } = s ∧
      (forwardD2U f s).link.u2d = s.link.u2d ∧ (forwardD2U f s).link.dSending = s.link.dSending := by
  have appended : forwardD2U f s = uChoose { s with link := { s.link with d2u := s.link.d2u ++ [f] } } := if_pos room
  rw [appended]
  refine ⟨by simp, ?_, by simp, by simp⟩
  apply State.ext_fields <;> simp

theorem forwardD2U_of_full {s : State} (f : Frame) (full : 8 ≤ s.link.d2u.length) :
    RaisedOnly classState 6 s (forwardD2U f s) := by
  have dropped : forwardD2U f s = raise classState srcDropD2U s := if_neg (Nat.not_lt.mpr full)
  rw [dropped]
  exact raise_only classState srcDropD2U s (by decide)

/-! ## The lowest FREE context (R169) -/

theorem isFree_iff (c : Context) : c.isFree = true ↔ c = .free := by
  cases c <;> simp [Context.isFree]

theorem freeContext_of_lowest {s : State} {i : Fin 4} (free : s.context i = .free) (lowest : ∀ j, j < i → s.context j ≠ .free) :
    s.freeContext = some i := by
  refine List.find?_eq_some_iff_getElem.mpr ⟨(isFree_iff _).mpr free, i.val, by simp, by simp, fun k below => ?_⟩
  have taken := lowest ⟨k, by omega⟩ below
  simpa [← isFree_iff] using taken

theorem freeContext_of_full {s : State} (full : ∀ i, s.context i ≠ .free) : s.freeContext = none := by
  simpa [State.freeContext, isFree_iff] using full

/-! ## The endpoint's part (R165 to R167, R169, R170) -/

section
variable {s : State} {r : Request}

theorem takeRequest_of_wrongSum (wrong : r.checkSum ≠ 0) : takeRequest r s = checkFailure r s :=
  if_pos wrong

theorem takeRequest_of_free {i : Fin 4} (right : r.checkSum = 0) (taken : r.broadcast = true → r.op = 2 ∨ r.op = 3)
    (free : s.freeContext = some i) : takeRequest r s = acceptRequest i r s := by
  cases broadcast : r.broadcast with
  | true => simp [takeRequest, right, broadcast, show r.op = opWrite ∨ r.op = opCommand from taken broadcast, free]
  | false => simp [takeRequest, right, broadcast, free]

/-- A broadcast that finds no context is discarded. -/
theorem takeRequest_of_broadcastFull (right : r.checkSum = 0) (broadcast : r.broadcast = true) (full : s.freeContext = none) :
    takeRequest r s = s := by
  simp [takeRequest, right, broadcast, full]

/-- So is one that is no WRITE and no COMMAND. -/
theorem takeRequest_of_broadcastOp (right : r.checkSum = 0) (broadcast : r.broadcast = true) (op : ¬ (r.op = 2 ∨ r.op = 3)) :
    takeRequest r s = s := by
  simp [takeRequest, right, broadcast, show ¬ (r.op = opWrite ∨ r.op = opCommand) from op]

theorem takeRequest_of_addressedFull (right : r.checkSum = 0) (broadcast : r.broadcast = false) (full : s.freeContext = none) :
    takeRequest r s = refuseRequest r s := by
  simp [takeRequest, right, broadcast, full]

/-- A valid fault record stays as it is (R167). -/
theorem checkFailure_of_valid (r : Request) (valid : s.ep.fault ≠ none) :
    checkFailure r s = raise classFault srcCheckFault s := by
  obtain ⟨x, held⟩ := Option.ne_none_iff_exists'.mp valid
  have same : { s.ep with fault := some x } = s.ep := by rw [← held]
  simp [checkFailure, held, same]

/-- An invalid one is filled from the request (R167). -/
theorem checkFailure_of_invalid (r : Request) (invalid : s.ep.fault = none) :
    checkFailure r s = raise classFault srcCheckFault { s with ep := { s.ep with fault := some (s.ep.recordOf r) } } := by
  simp [checkFailure, invalid]

/-- What a check failure leaves: FAULT source 0, and the request in a fault record that was invalid (R166, R167). -/
theorem checkFailure_spec (r : Request) (s : State) :
    RaisedOnly classFault 0 { s with ep := (checkFailure r s).ep } (checkFailure r s) ∧
      (s.ep.fault ≠ none → (checkFailure r s).ep = s.ep) ∧
      (s.ep.fault = none → ∃ rec, (checkFailure r s).ep = { s.ep with fault := some rec } ∧ rec.tag = r.tag ∧ rec.op = r.op ∧
        rec.code = r.space ∧ rec.cause = .check) := by
  have only : ∀ u : State, RaisedOnly classFault 0 u (raise classFault srcCheckFault u) :=
    fun u => raise_only classFault srcCheckFault u (by decide)
  by_cases invalid : s.ep.fault = none
  · have ep : (checkFailure r s).ep = { s.ep with fault := some (s.ep.recordOf r) } := by simp [checkFailure_of_invalid r invalid]
    refine ⟨?_, fun valid => absurd invalid valid, fun _ => ⟨s.ep.recordOf r, ep, rfl, rfl, rfl, rfl⟩⟩
    rw [ep, checkFailure_of_invalid r invalid]
    exact only _
  · have ep : (checkFailure r s).ep = s.ep := by simp [checkFailure_of_valid r invalid]
    refine ⟨?_, fun _ => ep, fun h => absurd h invalid⟩
    rw [ep, checkFailure_of_valid r invalid]
    exact only s

/-- The empty refusal slot takes the request with its BUSY response, and the D transmit arbiter may begin it (R170). -/
theorem refuseRequest_of_empty (empty : s.ep.refusal = none) :
    (refuseRequest r s).ep = { s.ep with refusal := some ⟨r, { tag := r.tag, status := .busy, words := [] }⟩ } ∧
      { refuseRequest r s with ep := s.ep, link := s.link } = s := by
  have refused : refuseRequest r s = dChoose { s with ep := { s.ep with refusal := some ⟨r, busyResponse r⟩ } } := by
    simp [refuseRequest, empty]
  rw [refused]
  refine ⟨by simp [busyResponse], ?_⟩
  apply State.ext_fields <;> simp

theorem refuseRequest_of_taken (taken : s.ep.refusal ≠ none) : refuseRequest r s = s := by
  obtain ⟨x, held⟩ := Option.ne_none_iff_exists'.mp taken
  simp [refuseRequest, held]

/-- Of all that becomes of a request, none touches the forward queues. -/
theorem takeRequest_link (r : Request) (s : State) :
    (takeRequest r s).link.u2d = s.link.u2d ∧ (takeRequest r s).link.d2u = s.link.d2u := by
  have refuses : (refuseRequest r s).link.u2d = s.link.u2d ∧ (refuseRequest r s).link.d2u = s.link.d2u := by
    unfold refuseRequest
    split <;> simp
  unfold takeRequest
  split
  · simp [checkFailure]
  · (repeat' split) <;> simp [refuses]

end

end Sys2Proof.Machine
end

section
/-! SUPPORT. FrameCompletedAtDIsRelayed: frames that go upstream, broadcasts among them (R158, R159, R165, R166, R169). -/

open Sys2Proof Sys2Proof.Machine

/-- Settles O40: the routing of R158, then what the endpoint has made of a broadcast, then the queue. -/
theorem frameCompletedAtDIsRelayed : Obligations.FrameCompletedAtDIsRelayed := by
  constructor
  · intro s f up frame other
    have routed : routeD f s.dFrameClosed = forwardD2U f s.dFrameClosed := routeD_of_other other
    refine ⟨_, exec_frameCompletedD up frame, by rw [routed]; simp [State.dFrameClosed], fun room => ?_, fun full => ?_⟩
    · obtain ⟨d2u, rest, u2d, dSending⟩ := forwardD2U_of_room (s := s.dFrameClosed) f room
      rw [routed]
      exact ⟨d2u, congrArg (fun t : State => { t with dPort := s.dPort }) rest, u2d, dSending⟩
    · have port : (forwardD2U f s.dFrameClosed).dPort = s.dFrameClosed.dPort := by simp
      rw [routed, port]
      exact forwardD2U_of_full (s := s.dFrameClosed) f full
  · intro s f up frame crc kind long all r s1 runs
    have broadcast : r.broadcast = true := (broadcast_ofFrame long).mpr all
    have routed : routeD f s1 = forwardD2U f (takeRequest r s1) :=
      routeD_of_broadcast ((isRequest_iff f).mpr ⟨crc, kind, long⟩) all
    obtain ⟨-, d2u⟩ := takeRequest_link r s1
    refine ⟨takeRequest r s1, forwardD2U f (takeRequest r s1), ?_, fun wrong => ?_, fun i right op free lowest => ?_,
      fun right op full => ?_, fun right op => ?_, fun room => ?_, fun full => ?_⟩
    · rw [← routed]
      exact exec_frameCompletedD up frame
    · rw [takeRequest_of_wrongSum wrong]
      exact checkFailure_spec r s1
    · rw [takeRequest_of_free (s := s1) right (fun _ => op) (freeContext_of_lowest free lowest)]
      rfl
    · exact takeRequest_of_broadcastFull right broadcast (freeContext_of_full full)
    · exact takeRequest_of_broadcastOp right broadcast op
    · obtain ⟨appended, rest, u2d, dSending⟩ := forwardD2U_of_room (s := takeRequest r s1) f (by rw [d2u]; exact room)
      exact ⟨by rw [appended, d2u], rest, u2d, dSending⟩
    · exact forwardD2U_of_full (s := takeRequest r s1) f (by rw [d2u]; exact full)
end

section
/-! SUPPORT. AddressedRequestTakesAContext: a request to the node address (R158, R166, R167, R169, R170). -/

open Sys2Proof Sys2Proof.Machine

/-- Settles O41: the endpoint alone takes the request, and each of its cases has its lemma. -/
theorem addressedRequestTakesAContext : Obligations.AddressedRequestTakesAContext := by
  intro s f up frame crc kind long own single r
  have single' : r.broadcast = false := by
    rw [← Bool.not_eq_true, broadcast_ofFrame long, own]
    exact single
  have routed : routeD f s.dFrameClosed = takeRequest r s.dFrameClosed :=
    routeD_of_addressed ((isRequest_iff f).mpr ⟨crc, kind, long⟩) own single
  obtain ⟨u2d, d2u⟩ := takeRequest_link r s.dFrameClosed
  have port : (takeRequest r s.dFrameClosed).dPort = s.dFrameClosed.dPort := by simp
  refine ⟨takeRequest r s.dFrameClosed, by rw [← routed]; exact exec_frameCompletedD up frame, port, d2u, u2d,
    fun i right free lowest => ?_, fun right full => ⟨fun empty => ?_, fun taken => ?_⟩, fun wrong => ?_⟩
  · rw [takeRequest_of_free (s := s.dFrameClosed) right (fun all => by rw [single'] at all; cases all)
      (freeContext_of_lowest free lowest)]
    exact ⟨context_setContext s.dFrameClosed i _, fun j away => context_setContext_ne s.dFrameClosed _ away, rfl, rfl, rfl, rfl⟩
  · rw [takeRequest_of_addressedFull (s := s.dFrameClosed) right single' (freeContext_of_full full)]
    obtain ⟨ep, rest⟩ := refuseRequest_of_empty (s := s.dFrameClosed) (r := r) empty
    exact ⟨ep, congrArg (fun t : State => { t with dPort := s.dPort }) rest⟩
  · rw [takeRequest_of_addressedFull (s := s.dFrameClosed) right single' (freeContext_of_full full),
      refuseRequest_of_taken (s := s.dFrameClosed) taken]
    rfl
  · rw [takeRequest_of_wrongSum wrong] at port ⊢
    obtain ⟨raised, kept, filled⟩ := checkFailure_spec r s.dFrameClosed
    rw [port]
    exact ⟨filled, kept, raised⟩
end

section
/-! SUPPORT. StepRunsTheFrontCommand: a step on a queue that holds a command. -/

open Sys2Proof Sys2Proof.Machine

/-- Settles O1: the front command runs with itself taken off the queue. -/
theorem stepRunsTheFrontCommand : Obligations.StepRunsTheFrontCommand := by
  intro s c rest front
  have runs : step s = exec c (s.withQueue rest) := by simp [step, front]
  exact runs
end

section
/-! SUPPORT. RefusedRequestChangesNothing: the request that executes next, R172's first checks as the rules word them, and the rows of
the table that execute a request (R168, R171, R172, R177). -/

namespace Sys2Proof.Machine

/-! ## The request that executes next (R171) -/

theorem isReading_eq_false {c : Context} (h : ∀ p, c ≠ .reading p) : c.isReading = false := by
  cases c <;> simp_all [Context.isReading]

/-- A WAITING context taken before every other WAITING one is the oldest of them. -/
theorem oldest_of_earliestWaiting {s : State} {i : Fin 4} {q : Taken} (waiting : s.context i = .waiting q)
    (earliest : ∀ j p, j ≠ i → s.context j = .waiting p → q.order < p.order) : s.oldest Context.isWaiting = some i := by
  refine (oldest_eq_some_iff s _ i).mpr ⟨by rw [waiting]; rfl, fun j isWaiting => ?_⟩
  by_cases e : j = i
  · exact .inr ⟨by rw [e], le_of_eq e.symm⟩
  · left
    cases context : s.context j with
    | waiting p =>
      rw [waiting]
      exact earliest j p e context
    | free | reading | answering => simp [context, Context.isWaiting] at isWaiting

theorem nextExecution_of_earliest {s : State} {i : Fin 4} {q : Taken} (alone : ∀ j p, s.context j ≠ .reading p)
    (waiting : s.context i = .waiting q) (earliest : ∀ j p, j ≠ i → s.context j = .waiting p → q.order < p.order) :
    s.nextExecution = some (i, q) := by
  have noReading : ((List.finRange 4).any fun j => (s.context j).isReading) = false := by
    simpa using fun j => isReading_eq_false (alone j)
  simp [State.nextExecution, noReading, oldest_of_earliestWaiting waiting earliest, waiting]

theorem nextExecution_of_reading {s : State} {j : Fin 4} {p : Taken} (reading : s.context j = .reading p) :
    s.nextExecution = none := by
  refine Option.eq_none_iff_forall_ne_some.mpr fun ⟨i, q⟩ next => ?_
  have alone := (nextExecution_waiting next).2 j
  rw [reading] at alone
  cases alone

theorem nextExecution_of_noWaiting {s : State} (idle : ∀ j p, s.context j ≠ .waiting p) : s.nextExecution = none :=
  Option.eq_none_iff_forall_ne_some.mpr fun ⟨i, q⟩ next => idle i q (nextExecution_waiting next).1

/-! ## R172's first checks as the rules word them -/

/-- The op nibble names no op (R172, R182). -/
theorem undefinedOp_iff (r : Request) : r.undefinedOp = true ↔ r.op.toNat = 0 ∨ 5 ≤ r.op.toNat := by
  simp only [Request.undefinedOp, Request.opDefined, opRead, opWrite, opCommand, opFetch]
  generalize r.op = op
  revert op
  decide

theorem writeOp_iff (r : Request) : (r.op == opWrite) = true ↔ r.op.toNat = 2 := by
  rw [beq_iff_eq, ← BitVec.toNat_inj]
  rfl

theorem commandOp_iff (r : Request) : (r.op == opCommand) = true ↔ r.op.toNat = 3 := by
  rw [beq_iff_eq, ← BitVec.toNat_inj]
  rfl

/-- The op is one of the four and the octets are those that it and the count call for (R172 item 1). -/
theorem opAndLength_iff (r : Request) :
    (r.opDefined && r.lengthFits) = true ↔
      ((r.op.toNat = 1 ∨ r.op.toNat = 4) ∧ r.octets.length = 12) ∨ (r.op.toNat = 2 ∧ r.octets.length = 12 + 4 * r.count) ∨
        (r.op.toNat = 3 ∧ r.octets.length = 16) := by
  have ops : r.undefinedOp = true ∨ r.op = opRead ∨ r.op = opWrite ∨ r.op = opCommand ∨ r.op = opFetch := by
    simp only [Request.undefinedOp, Request.opDefined]
    generalize r.op = op
    revert op
    decide
  rcases ops with undefined | op | op | op | op
  · have outside := (undefinedOp_iff r).mp undefined
    rw [Request.undefinedOp, Bool.not_eq_true'] at undefined
    simp only [undefined, Bool.false_and, Bool.false_eq_true, false_iff]
    omega
  all_goals simp [Request.opDefined, Request.lengthFits, op, opRead, opWrite, opCommand, opFetch]

/-- STOP, a valid record filled before the request took its context, and a request that R168 holds back (R168, log entry 12). -/
theorem heldBack_iff (e : Endpoint) (q : Taken) :
    (q.request.heldByFault && e.faultHolds q) = true ↔
      (q.request.op.toNat = 2 ∨ (q.request.op.toNat = 3 ∧ q.request.space.toNat ≠ 9)) ∧ e.mode = .stop ∧
        ∃ rec, e.fault = some rec ∧ rec.filledAt ≤ q.order := by
  have held : q.request.heldByFault = true ↔
      q.request.op.toNat = 2 ∨ (q.request.op.toNat = 3 ∧ q.request.space.toNat ≠ 9) := by
    rw [Request.heldByFault, Bool.or_eq_true, Bool.and_eq_true, writeOp_iff, commandOp_iff, Bool.not_eq_true', decide_eq_false_iff_not,
      codeClearFault]
  have valid : e.faultHolds q = true ↔ e.mode = .stop ∧ ∃ rec, e.fault = some rec ∧ rec.filledAt ≤ q.order := by
    cases fault : e.fault <;> simp [Endpoint.faultHolds, fault]
  rw [Bool.and_eq_true, held, valid]

/-- A COMMAND whose code is none of the thirteen (R172, R177). -/
theorem undefinedCode_iff (r : Request) :
    r.undefinedCode = true ↔ ¬ (r.op.toNat = 3 → 1 ≤ r.space.toNat ∧ r.space.toNat ≤ 13) := by
  simp only [Request.undefinedCode, Request.codeDefined, Bool.and_eq_true, commandOp_iff, Bool.not_eq_true', Bool.and_eq_false_iff,
    decide_eq_false_iff_not]
  omega

/-! ## The three refusals (R168, R172) -/

theorem refuses_of_misfit (e : Endpoint) {q : Taken} (misfit : (q.request.opDefined && q.request.lengthFits) = false) :
    e.refuses q = some .badOp := by
  have bad : (!q.request.opDefined || !q.request.lengthFits) = true := by rw [← Bool.not_and, misfit]; rfl
  simp only [Endpoint.refuses, bad, if_true]

theorem refuses_of_fits {e : Endpoint} {q : Taken} (fits : (q.request.opDefined && q.request.lengthFits) = true) :
    e.refuses q =
      if q.request.heldByFault && e.faultHolds q then some .faulted else if q.request.undefinedCode then some .badOp else none := by
  have good : (!q.request.opDefined || !q.request.lengthFits) = false := by rw [← Bool.not_and, fits]; rfl
  simp only [Endpoint.refuses, good, Bool.false_eq_true, if_false]
  rfl

/-! ## The rows that execute a request (R171, log entry 8) -/

/-- The row executes a request like this one: it is the next one's execution, and of its form. -/
def rowExecutes (c : Instr) (r : Request) : Prop :=
  ∃ form run, form r = true ∧ ∀ s, exec c s = .next (execute form run s)

/-- A row that executes a request answers what R172's first checks say. -/
theorem answersWith_of_refuses {c : Instr} {s : State} {i : Fin 4} {q : Taken} {status : Status} (row : rowExecutes c q.request)
    (next : s.nextExecution = some (i, q)) (refused : s.ep.refuses q = some status) : answersWith c s s i q status [] := by
  obtain ⟨form, run, right, arm⟩ := row
  refine ⟨_, arm s, ?_⟩
  rw [execute_refused run next refused right]
  exact settle_answer i q status [] s

/-- READ, FETCH and WRITE execute the requests of their op, and those of no op. -/
theorem executes_of_op {x : Instr × BitVec 4} {r : Request} (row : x ∈ [(Instr.read, opRead), (.fetch, opFetch), (.write, opWrite)])
    (right : r.op = x.2 ∨ r.undefinedOp = true) : rowExecutes x.1 r := by
  have form : (r.op == x.2 || r.undefinedOp) = true := by simpa using right
  fin_cases row <;> exact ⟨_, _, form, fun _ => rfl⟩

theorem executes_of_space {x : Instr × Nat} {r : Request} (row : x ∈ [(Instr.writeChannelMap, 1), (.writeWatch, 2), (.writeSlot, 3)])
    (writes : r.writesSpace x.2 = true) : rowExecutes x.1 r := by
  fin_cases row <;> exact ⟨_, _, writes, fun _ => rfl⟩

theorem executes_of_words {x : Instr × Nat × List Nat} {r : Request}
    (row : x ∈ [(Instr.writeTimingSet, 6, [2, 3]), (.writeCountTable, 0, [6]),
      (.writeEnableSet, 5, [8, 9, 10, 11, 12, 13, 14, 15]), (.writeOrderList, 5, [17]), (.writeExpressClass, 0, [9]),
      (.writeCheckMode, 0, [2])])
    (writes : r.writesWords x.2.1 x.2.2 = true) : rowExecutes x.1 r := by
  fin_cases row <;> exact ⟨_, _, writes, fun _ => rfl⟩

theorem executes_of_code {x : Instr × Nat} {r : Request}
    (row : x ∈ [(Instr.armSlot, 1), (.disarmSlot, 2), (.forceTrigger, 3), (.releaseHalf, 4), (.enableWatch, 5), (.disableWatch, 6),
      (.gate, 7), (.ackNotice, 8), (.clearFault, 9), (.memStart, 10), (.memHold, 11), (.resetCapture, 12), (.realign, 13)])
    (asks : r.asksFor x.2 = true) : rowExecutes x.1 r := by
  fin_cases row <;> exact ⟨_, _, asks, fun _ => rfl⟩

theorem writesSpace_iff (r : Request) (space : Nat) :
    r.writesSpace space = true ↔ r.op.toNat = 2 ∧ r.space.toNat = space := by
  rw [Request.writesSpace, Bool.and_eq_true, writeOp_iff, decide_eq_true_eq]

theorem writesWords_iff (r : Request) (space : Nat) (words : List Nat) :
    r.writesWords space words = true ↔
      r.op.toNat = 2 ∧ r.space.toNat = space ∧ ∃ n ∈ words, r.index ≤ n ∧ n < r.index + r.count := by
  have covers : ∀ n, (r.covered n).isSome = true ↔ r.index ≤ n ∧ n < r.index + r.count := fun n => by
    unfold Request.covered
    split <;> simp_all
  rw [Request.writesWords, Bool.and_eq_true, writesSpace_iff, List.any_eq_true, and_assoc]
  simp only [covers]

theorem asksFor_iff (r : Request) (code : Nat) :
    r.asksFor code = true ↔
      r.op.toNat = 3 ∧ (r.space.toNat = code ∨ ¬ (r.op.toNat = 3 → 1 ≤ r.space.toNat ∧ r.space.toNat ≤ 13)) := by
  rw [Request.asksFor, Bool.or_eq_true, undefinedCode_iff, Request.isCommand, Bool.and_eq_true, commandOp_iff, decide_eq_true_eq]
  tauto

end Sys2Proof.Machine

open Sys2Proof Sys2Proof.Machine

/-- Settles O42: the oldest WAITING request, then the row that executes it and the first check that refuses it. -/
theorem refusedRequestChangesNothing : Obligations.RefusedRequestChangesNothing := by
  refine ⟨fun s i q alone waiting earliest => nextExecution_of_earliest alone waiting earliest, fun s nothing => ?_,
    fun s i q next => ?_⟩
  · rcases nothing with ⟨j, p, reading⟩ | idle
    · exact nextExecution_of_reading reading
    · exact nextExecution_of_noWaiting idle
  intro r op space length fits held coded noOp row
  have named : ∀ {o : BitVec 4}, op = o.toNat ∨ noOp → r.op = o ∨ r.undefinedOp = true := fun {o} right =>
    right.imp (fun e => BitVec.eq_of_toNat_eq e) (undefinedOp_iff r).mpr
  have executes : ∀ c, row c → rowExecutes c r := by
    rintro c (⟨rfl, right⟩ | ⟨rfl, right⟩ | ⟨rfl, right⟩ | ⟨x, mem, rfl, writes⟩ | ⟨x, mem, rfl, writes⟩ |
      ⟨x, mem, rfl, asks⟩)
    · exact executes_of_op (x := (.read, opRead)) (by simp) (named right)
    · exact executes_of_op (x := (.fetch, opFetch)) (by simp) (named right)
    · exact executes_of_op (x := (.write, opWrite)) (by simp) (named right)
    · exact executes_of_space mem ((writesSpace_iff r x.2).mpr writes)
    · exact executes_of_words mem ((writesWords_iff r x.2.1 x.2.2).mpr writes)
    · exact executes_of_code mem ((asksFor_iff r x.2).mpr asks)
  refine ⟨fun c rows => ⟨fun misfit => ?_, fun fitting faulty => ?_, fun fitting clear uncoded => ?_⟩,
    fun fitting clear coded => ?_⟩
  · exact answersWith_of_refuses (executes c rows) next
      (refuses_of_misfit s.ep (Bool.eq_false_iff.mpr (mt (opAndLength_iff r).mp misfit)))
  · refine answersWith_of_refuses (executes c rows) next ?_
    rw [refuses_of_fits ((opAndLength_iff r).mpr fitting), if_pos ((heldBack_iff s.ep q).mpr faulty)]
  · refine answersWith_of_refuses (executes c rows) next ?_
    rw [refuses_of_fits ((opAndLength_iff r).mpr fitting), if_neg (mt (heldBack_iff s.ep q).mp clear),
      if_pos ((undefinedCode_iff r).mpr uncoded)]
  · refine ⟨next, ?_⟩
    rw [refuses_of_fits ((opAndLength_iff r).mpr fitting), if_neg (mt (heldBack_iff s.ep q).mp clear),
      if_neg (mt (undefinedCode_iff r).mp (not_not.mpr coded))]
end

section
/-! SUPPORT. ReadReturnsTheWordsAsTheyStand: the checks of a READ and what it returns, then the words of 11.4 field by field (R173, R174,
R183, R184). -/

namespace Sys2Proof.Machine

/-! ## The checks of a READ (R174) -/

theorem spaceWords_eq_getElem? (space : Nat) : spaceWords space = [16, 256, 256, 128, 17, 32, 8][space]? := by
  match space with
  | 0 | 1 | 2 | 3 | 4 | 5 | 6 => rfl
  | n + 7 => simp [spaceWords]

theorem spaceChecks_of_noSpace {r : Request} (lacks : spaceWords r.space.toNat = none) : spaceChecks r = some .badSpace := by
  simp only [spaceChecks, lacks]

theorem spaceChecks_of_space {r : Request} {size : Nat} (space : spaceWords r.space.toNat = some size) :
    spaceChecks r =
      if r.count < 1 ∨ 16 < r.count then some .badValue else if size < r.index + r.count then some .badIndex else none := by
  simp only [spaceChecks, space]

/-- A READ is answered with the status its checks find, or with the words; either way the part stays as it is. -/
theorem read_answers {s : State} {i : Fin 4} {q : Taken} (now : s.executesNow i q) (op : q.request.op = opRead) :
    (∀ status, spaceChecks q.request = some status → answersWith .read s s i q status []) ∧
      (spaceChecks q.request = none →
        answersWith .read s s i q .ok (readWords s q.request.space.toNat q.request.index q.request.count)) := by
  have form : (q.request.op == opRead || q.request.undefinedOp) = true := by simp [op]
  refine ⟨fun status found => ⟨_, rfl, execute_answers now form ?_⟩, fun clear => ⟨_, rfl, execute_answers now form ?_⟩⟩
  · simp only [runRead, found, refusedWith]
  · simp only [runRead, clear]

theorem readWords_getElem? (s : State) (space index : Nat) {count k : Nat} (h : k < count) :
    (readWords s space index count)[k]? = some (spaceWord s space (index + k)) := by
  simp [readWords, h]

theorem readWords_length (s : State) (space index count : Nat) : (readWords s space index count).length = count := by
  simp [readWords]

/-! ## Words put together from fields (11.4, R183) -/

/-- A word with further fields placed in it. -/
def withFields (w : MgmtWord) (fields : List (Nat × Nat × Nat)) : MgmtWord :=
  fields.foldl (fun w f => w ||| place f.1 f.2.1 f.2.2) w

/-- Every field lies within the word. -/
def fieldsFit (fields : List (Nat × Nat × Nat)) : Bool :=
  fields.all fun f => decide (f.1 + f.2.1 ≤ 32)

theorem shows_zero : Shows 0 [] := by
  intro k _
  simp

theorem shows_of_zero {w : MgmtWord} (h : w = 0) : Shows w [] :=
  h ▸ shows_zero

theorem shows_place {lo width : Nat} (v : Nat) (fit : lo + width ≤ 32) : Shows (place lo width v) [(lo, width, v)] := by
  intro k _
  simp [getLsbD_place lo width v k fit]

theorem Shows.or {v w : MgmtWord} {xs ys : List (Nat × Nat × Nat)} (hv : Shows v xs) (hw : Shows w ys) :
    Shows (v ||| w) (xs ++ ys) := by
  intro k small
  rw [BitVec.getLsbD_or, hv k small, hw k small, List.any_append]

theorem Shows.withFields {w : MgmtWord} {xs : List (Nat × Nat × Nat)} (h : Shows w xs) (ys : List (Nat × Nat × Nat))
    (fit : fieldsFit ys = true) : Shows (withFields w ys) (xs ++ ys) := by
  induction ys generalizing w xs with
  | nil => simpa [Machine.withFields] using h
  | cons f ys ih =>
    simp only [fieldsFit, List.all_cons, Bool.and_eq_true, decide_eq_true_eq] at fit
    obtain ⟨first, others⟩ := fit
    rw [List.append_cons]
    exact ih (h.or (shows_place f.2.2 first)) others

/-- A word put together from its fields shows them. -/
theorem shows_of_fields {w : MgmtWord} {f : Nat × Nat × Nat} {fields : List (Nat × Nat × Nat)}
    (eq : w = withFields (place f.1 f.2.1 f.2.2) fields) (fit : fieldsFit (f :: fields) = true) : Shows w (f :: fields) := by
  simp only [fieldsFit, List.all_cons, Bool.and_eq_true, decide_eq_true_eq] at fit
  obtain ⟨first, others⟩ := fit
  rw [eq]
  exact (shows_place f.2.2 first).withFields fields others

/-- A word that is a value of 32 bits shows it. -/
theorem shows_of_eq {w v : MgmtWord} (eq : w = v) : Shows w [(0, 32, v.toNat)] := by
  subst eq
  intro k small
  simp [small, BitVec.testBit_toNat]

/-- A value that its field holds whole shows in every wider field. -/
theorem place_of_lt {v width : Nat} (lo wider : Nat) (h : v < 2 ^ width) (le : width ≤ wider) : place lo width v = place lo wider v := by
  rw [place, place, Nat.mod_eq_of_lt h, Nat.mod_eq_of_lt (Nat.lt_of_lt_of_le h (Nat.pow_le_pow_right (by decide) le))]

theorem flag_eq_toNat (b : Bool) : flag b = b.toNat := by
  cases b <;> rfl

theorem testBit_flag (b : Bool) : (flag b).testBit 0 = b := by
  cases b <;> rfl

theorem expressCode_eq_elim (c : Option (Fin 8)) : expressCode c = c.elim 8 Fin.val := by
  cases c <;> rfl

theorem boundCode_eq_elim (i : Option (Fin 8)) : boundCode i = i.elim 15 Fin.val := by
  cases i <;> rfl

theorem activeCode_eq_elim (h : Option Half) : activeCode h = h.elim 3 Half.number := by
  cases h <;> rfl

/-! ## The words of a table's rows (11.4) -/

theorem spaceWord_channel (s : State) (e : Fin 64) {k : Nat} (h : k < 4) : spaceWord s 1 (4 * e.val + k) = (s.channel e).word k := by
  have row : (4 * e.val + k) / 4 = e := by omega
  have place : (4 * e.val + k) % 4 = k := by omega
  simp [spaceWord, channelWord, row, place]

theorem spaceWord_watch (s : State) (w : Fin 32) {k : Nat} (h : k < 8) : spaceWord s 2 (8 * w.val + k) = (s.watch w).word k := by
  have row : (8 * w.val + k) / 8 = w := by omega
  have place : (8 * w.val + k) % 8 = k := by omega
  simp [spaceWord, watchWord, row, place]

theorem spaceWord_slot (s : State) (j : Fin 8) {k : Nat} (h : k < 16) : spaceWord s 3 (16 * j.val + k) = (s.slot j).word k := by
  have row : (16 * j.val + k) / 16 = j := by omega
  have place : (16 * j.val + k) % 16 = k := by omega
  simp [spaceWord, slotWord, row, place]

theorem faultWord_of_none {e : Endpoint} (h : e.fault = none) : faultWord e = 0 := by
  simp only [faultWord, h]

theorem faultWord_of_some {e : Endpoint} {f : FaultRecord} (h : e.fault = some f) :
    faultWord e = place 31 1 1 ||| place 16 8 f.tag.toNat ||| place 8 4 f.op.toNat ||| place 0 8 f.code.toNat := by
  simp only [faultWord, h]

theorem causeWord_of_none {e : Endpoint} (h : e.fault = none) : causeWord e = 0 := by
  simp only [causeWord, h]

theorem causeWord_of_some {e : Endpoint} {f : FaultRecord} (h : e.fault = some f) : causeWord e = 1 := by
  simp only [causeWord, h]

theorem ticks_of_noResult {l : LastResult} (h : ∀ d, l ≠ .result d) : l.ticks = 0 := by
  cases l with
  | result d => exact absurd rfl (h d)
  | none | overrun => rfl

theorem indexWord_of_some {s : State} {n : Nat} {j : Fin 8} {half : Half} (h : s.capture.index[n]? = some (j, half)) :
    indexWord s (n + 1) =
      place 31 1 1 ||| place 24 3 j.val ||| place 16 1 half.number ||| place 0 16 (s.record j half).captureNumber.toNat := by
  simp only [indexWord, h, indexEntryWord]

theorem indexWord_of_none {s : State} {n : Nat} (h : s.capture.index[n]? = none) : indexWord s (n + 1) = 0 := by
  simp only [indexWord, h]

theorem noticeWord_pending (u : NoticeUnit) (c : Fin 8) : noticeWord u c.val = u.pending[c] := by
  simp [noticeWord]

theorem noticeWord_enable (u : NoticeUnit) (c : Fin 8) : noticeWord u (8 + c.val) = u.enable[c] := by
  simp [noticeWord]

/-- Word 16: the announced flags, each in the bit of its class. -/
theorem shows_announced (u : NoticeUnit) :
    Shows (u.announced.zeroExtend 32) ((List.finRange 8).map fun c => (c.val, 1, flag (u.announcedFlag c))) := by
  intro k small
  rw [BitVec.zeroExtend, BitVec.getLsbD_setWidth, decide_eq_true small, Bool.true_and, Bool.eq_iff_iff, List.any_map, List.any_eq_true]
  constructor
  · intro set
    refine ⟨⟨k, BitVec.lt_of_getLsbD set⟩, List.mem_finRange _, ?_⟩
    rw [Function.comp_apply, Nat.sub_self, testBit_flag, NoticeUnit.announcedFlag, set]
    simp
  · rintro ⟨c, -, shown⟩
    simp only [Function.comp_apply, Bool.and_eq_true, decide_eq_true_eq] at shown
    obtain ⟨⟨low, high⟩, bit⟩ := shown
    have own : k = c.val := by omega
    subst own
    rwa [Nat.sub_self, testBit_flag] at bit

theorem noticeWord_of_late (u : NoticeUnit) {n : Nat} (h : 19 ≤ n) : noticeWord u n = 0 := by
  simp only [noticeWord]
  rw [dif_neg (by omega), dif_neg (by omega), if_neg (by omega), if_neg (by omega), if_neg (by omega)]

theorem memoryWord_of_late (s : State) {n : Nat} (h : 4 ≤ n) : memoryWord s n = 0 := by
  obtain ⟨m, rfl⟩ := Nat.exists_eq_add_of_le' h
  rfl

/-- Word 18 while the notice slot is empty (log entry 28). -/
theorem statusWord_of_empty {u : NoticeUnit} (h : u.noticeSlot = none) :
    statusWord u = place 8 1 (flag u.timer.running) ||| place 12 1 (flag u.alert) := by
  simp [statusWord, h]

theorem statusWord_of_notice {u : NoticeUnit} {n : Notice} (h : u.noticeSlot = some n) :
    statusWord u =
      place 0 1 1 ||| place 4 3 n.cls.val ||| place 7 1 (flag n.express) ||| place 8 1 (flag u.timer.running) |||
        place 12 1 (flag u.alert) := by
  simp only [statusWord, h]

theorem shows_orderWord (order : Vector (Fin 8) 8) :
    Shows (orderWord order) ((List.finRange 8).map fun k => (4 * k.val, 4, order[k].val)) := by
  have placed : orderWord order = withFields 0 ((List.finRange 8).map fun k => (4 * k.val, 4, order[k].val)) := by
    rw [withFields, List.foldl_map, orderWord]
  rw [placed]
  exact shows_zero.withFields _ rfl

end Sys2Proof.Machine

open Sys2Proof Sys2Proof.Machine

/-- Settles O43: the checks in their order, then every word by the fields it is put together from. -/
theorem readReturnsTheWordsAsTheyStand : Obligations.ReadReturnsTheWordsAsTheyStand := by
  refine ⟨fun s i q now op => ?_, fun s => ?_, fun s e => ?_, fun s w => ?_, fun s j => ?_, fun s => ?_, fun s => ?_, fun s => ?_,
    -- the codes of the values
    rfl, rfl, rfl, rfl, rfl, rfl, rfl, rfl, rfl, rfl, fun _ => rfl, rfl, rfl, rfl, rfl, rfl, rfl, rfl⟩
  · intro space index count sizes
    obtain ⟨refused, accepted⟩ := read_answers now op
    have found : ∀ {size}, sizes[space]? = some size → spaceWords space = some size := fun h => (spaceWords_eq_getElem? space).trans h
    refine ⟨fun large => refused _ (spaceChecks_of_noSpace ?_), fun small wrong => refused _ ?_,
      fun size has least most past => refused _ ?_, fun size has least most within => ⟨_, accepted ?_, ?_, fun k h => ?_⟩⟩
    · rw [spaceWords_eq_getElem?]
      exact List.getElem?_eq_none large
    · rw [spaceChecks_of_space (found (List.getElem?_eq_getElem (l := sizes) small)), if_pos wrong]
    · rw [spaceChecks_of_space (found has), if_neg (by omega), if_pos past]
    · rw [spaceChecks_of_space (found has), if_neg (by omega), if_neg (Nat.not_lt.mpr within)]
    · exact readWords_length s space index count
    · exact readWords_getElem? s space index h
  -- Space 0, CONTROL
  · intro word portFields
    simp only [← flag_eq_toNat, ← expressCode_eq_elim]
    exact ⟨shows_of_fields rfl rfl, shows_of_fields rfl rfl, shows_of_fields rfl rfl,
      fun invalid => ⟨shows_of_zero (faultWord_of_none invalid), shows_of_zero (causeWord_of_none invalid)⟩,
      fun f valid => ⟨shows_of_fields (faultWord_of_some valid) rfl, shows_of_fields (causeWord_of_some valid) rfl⟩,
      shows_of_fields rfl rfl, shows_of_fields rfl rfl, shows_of_fields rfl rfl, shows_of_fields rfl rfl, shows_of_fields rfl rfl,
      shows_of_eq rfl, shows_of_fields rfl rfl, shows_of_fields rfl rfl, shows_of_fields rfl rfl, shows_zero, shows_zero⟩
  -- Space 1, CHANNEL MAP
  · intro x word
    simp only [← flag_eq_toNat, ← boundCode_eq_elim, word, spaceWord_channel s e, Nat.reduceLT]
    exact ⟨shows_of_fields rfl rfl, shows_of_fields rfl rfl, shows_of_fields rfl rfl, shows_of_eq rfl⟩
  -- Space 2, WATCH TABLE
  · intro x c word
    simp only [word, spaceWord_watch s w, Nat.reduceLT]
    exact ⟨shows_of_fields rfl rfl, shows_of_fields rfl rfl, shows_of_fields rfl rfl,
      shows_of_fields (place_of_lt 0 32 c.windowMax.isLt (by decide)) rfl, shows_of_fields rfl rfl,
      fun d result => shows_of_fields (congrArg (fun l : LastResult => place 0 24 l.ticks) result) rfl,
      fun other => shows_of_zero (congrArg (place 0 24) (ticks_of_noResult other)), shows_of_eq rfl, shows_of_eq rfl⟩
  -- Space 3, SLOT TABLE
  · intro x c l a b word last
    simp only [← flag_eq_toNat, ← activeCode_eq_elim, word, spaceWord_slot s j, Nat.reduceLT]
    exact ⟨shows_of_fields rfl rfl, shows_of_fields rfl rfl, shows_of_fields rfl rfl, shows_of_fields rfl rfl, shows_of_fields rfl rfl,
      shows_of_fields rfl rfl, shows_of_fields rfl rfl, shows_of_fields rfl rfl, shows_of_fields rfl rfl, shows_of_fields rfl rfl,
      shows_of_fields rfl rfl, shows_of_fields rfl rfl, shows_of_eq rfl, shows_of_eq rfl, shows_of_eq rfl, shows_of_eq rfl⟩
  -- Space 4, CAPTURE INDEX
  · exact ⟨shows_of_fields rfl rfl, fun n j half stands => shows_of_fields (indexWord_of_some stands) rfl,
      fun n past => shows_of_zero (indexWord_of_none past)⟩
  -- Space 5, NOTICE
  · intro u word rest
    simp only [rest, ← flag_eq_toNat]
    exact ⟨fun c => ⟨shows_of_eq (noticeWord_pending u c), shows_of_eq (noticeWord_enable u c)⟩, shows_announced u,
      shows_orderWord u.order, fun empty => shows_of_fields (statusWord_of_empty empty) rfl,
      fun n holds => shows_of_fields (statusWord_of_notice holds) rfl, fun n past => shows_of_zero (noticeWord_of_late u past)⟩
  -- Space 6, MEMORY
  · intro word t
    simp only [← flag_eq_toNat]
    exact ⟨shows_of_fields rfl rfl, shows_of_fields rfl rfl, shows_of_fields rfl rfl, shows_of_fields rfl rfl,
      fun n past => shows_of_zero (memoryWord_of_late s past)⟩
end

section
/-! SUPPORT. EveryCommandGivesANextState: every arm of the dispatch gives a next state, and none of the operations it is made of touches
the queue of commands (log entries 1, 22 and 26). -/

namespace Sys2Proof.Machine

/-! ## What an owner answers -/

@[simp] theorem refusedWith_state (status : Status) (s : State) : (refusedWith status s).1 = s := rfl

@[simp] theorem acceptedWith_state (s : State) : (acceptedWith s).1 = s := rfl

/-! ## Owners of a WRITE (R175) -/

theorem writeControl_keeps_pending (r : Request) (s : State) : (writeControl r s).1.pending = s.pending := by
  have counted : (writeCountSettings r (writeMode r s)).pending = s.pending := by
    rw [writeCountSettings_eq]
    simp [writeMode]
  unfold writeControl
  split
  · rfl
  · simpa [writeSettings] using counted

/-- Each of the other owners changes its own table alone. -/
theorem runWrite_keeps_pending (i : Fin 4) (r : Request) (s : State) : (runWrite i r s).1.pending = s.pending := by
  unfold runWrite
  split
  · rfl
  · unfold writeOwner
    split
    · exact writeControl_keeps_pending r s
    · unfold writeMap
      (repeat' split) <;> simp
    · unfold writeWatches
      (repeat' split) <;> simp
    · unfold writeSlots
      (repeat' split) <;> simp
    · unfold writeNotice
      split <;> simp
    · unfold writeTiming
      (repeat' split) <;> simp
    · rfl

/-! ## READ and FETCH (R174, R176) -/

theorem runRead_keeps_pending (i : Fin 4) (r : Request) (s : State) : (runRead i r s).1.pending = s.pending := by
  unfold runRead
  split <;> rfl

theorem runFetch_keeps_pending (i : Fin 4) (r : Request) (s : State) : (runFetch i r s).1.pending = s.pending := by
  unfold runFetch
  split <;> rfl

/-! ## Commands (R177) -/

theorem armSlot_keeps_pending (i : Fin 8) (s : State) : (armSlot i s).1.pending = s.pending := by
  unfold armSlot
  split
  · rfl
  · unfold armTakes
    (repeat' split) <;> simp

theorem disarmSlot_keeps_pending (i : Fin 8) (s : State) : (disarmSlot i s).1.pending = s.pending := by
  unfold disarmSlot
  split <;> simp

theorem releaseHalf_keeps_pending (i : Fin 8) (h : Half) (s : State) : (releaseHalf i h s).1.pending = s.pending := by
  unfold releaseHalf releaseFull
  (repeat' split) <;> simp

theorem enableWatch_keeps_pending (w : Fin 32) (s : State) : (enableWatch w s).1.pending = s.pending := by
  unfold enableWatch
  (repeat' split) <;> simp

theorem memStart_keeps_pending (s : State) : (memStart s).1.pending = s.pending := by
  unfold memStart
  split <;> rfl

theorem memHold_keeps_pending (s : State) : (memHold s).1.pending = s.pending := by
  unfold memHold
  (repeat' split) <;> simp

theorem resetCapture_keeps_pending (s : State) : (resetCapture s).1.pending = s.pending := by
  simp [resetCapture_eq]

theorem realign_keeps_pending (p : Port) (s : State) : (realign p s).1.pending = s.pending := by
  unfold realign
  dsimp only
  split <;> simp

/-! ## Every command -/

/-- The frame around an execution leaves the queue as the owner does. -/
theorem execute_keeps_pending {s : State} (form : Request → Bool) (run : Execution)
    (owner : ∀ i r, (run i r s).1.pending = s.pending) : (execute form run s).pending = s.pending := by
  rcases execute_cases form run s with same | ⟨i, q, -, -, ⟨status, e⟩ | ⟨-, e⟩⟩
  · rw [same]
  · rw [e]
    simp
  · rw [e]
    simpa using owner i q.request

/-- A COMMAND row with an argument. -/
theorem executeArg_keeps_pending {α : Type} {s : State} (form : Request → Bool) (take : MgmtWord → Option α)
    (run : α → State → State × Reply) (owner : ∀ a, (run a s).1.pending = s.pending) :
    (execute form (withArg take run) s).pending = s.pending := by
  refine execute_keeps_pending form _ fun i r => ?_
  unfold withArg
  split
  · exact owner _
  · rfl

/-- No arm of the dispatch refuses its command or ends in a fault. -/
theorem exec_next (c : Instr) (s : State) : ∃ t, exec c s = .next t := by
  cases c <;> exact ⟨_, rfl⟩

/-- The commands that wait behind one are those that wait after it. -/
theorem exec_keeps_pending {s t : State} (c : Instr) (h : exec c s = .next t) : t.pending = s.pending := by
  cases c with
  | powerOnReset =>
    cases h
    rfl
  | symbolReceived =>
    cases h
    simp
  | tapValue p symbols =>
    cases h
    split
    · exact foldl_keeps State.pending _ (fun u y => by simp) symbols s
    · rfl
  | lockedSymbol | receiverUp | tapProvedFalse | oversizeFrame | lossOfAlignment | frameCompletedU | frameCompletedD
  | pauseEnd | holdoffExpiry =>
    cases h
    split <;> simp
  | read =>
    cases h
    exact execute_keeps_pending _ _ fun i r => runRead_keeps_pending i r s
  | fetch =>
    cases h
    exact execute_keeps_pending _ _ fun i r => runFetch_keeps_pending i r s
  | write | writeChannelMap | writeWatch | writeSlot | writeTimingSet | writeCountTable | writeEnableSet | writeOrderList
  | writeExpressClass | writeCheckMode =>
    cases h
    exact execute_keeps_pending _ _ fun i r => runWrite_keeps_pending i r s
  | armSlot =>
    cases h
    exact executeArg_keeps_pending _ _ _ fun i => armSlot_keeps_pending i s
  | disarmSlot =>
    cases h
    exact executeArg_keeps_pending _ _ _ fun i => disarmSlot_keeps_pending i s
  | forceTrigger =>
    cases h
    exact executeArg_keeps_pending _ _ _ fun i => by simp [forceTrigger]
  | releaseHalf =>
    cases h
    exact executeArg_keeps_pending _ _ _ fun a => releaseHalf_keeps_pending a.1 a.2 s
  | enableWatch =>
    cases h
    exact executeArg_keeps_pending _ _ _ fun w => enableWatch_keeps_pending w s
  | disableWatch =>
    cases h
    exact executeArg_keeps_pending _ _ _ fun _ => rfl
  | gate =>
    cases h
    exact executeArg_keeps_pending _ _ _ fun _ => rfl
  | ackNotice =>
    cases h
    exact executeArg_keeps_pending _ _ _ fun a => by simp [ackNotice]
  | realign =>
    cases h
    exact executeArg_keeps_pending _ _ _ fun p => realign_keeps_pending p s
  | clearFault =>
    cases h
    exact execute_keeps_pending _ _ fun _ _ => rfl
  | memStart =>
    cases h
    exact execute_keeps_pending _ _ fun _ _ => memStart_keeps_pending s
  | memHold =>
    cases h
    exact execute_keeps_pending _ _ fun _ _ => memHold_keeps_pending s
  | resetCapture =>
    cases h
    exact execute_keeps_pending _ _ fun _ _ => resetCapture_keeps_pending s
  | burstEnd | refreshDue | refreshEnd | fetchReadEnd | countTableWriteEnd | initSequenceEnd | exitSequenceEnd | dFrameSent
  | uFrameSent =>
    cases h
    split <;> simp
  | closingOperationEnd =>
    cases h
    (repeat' split) <;> simp

end Sys2Proof.Machine

open Sys2Proof Sys2Proof.Machine

/-- Settles O3: each arm of the dispatch gives a next state, and it is one in which the same commands wait. -/
theorem everyCommandGivesANextState : Obligations.EveryCommandGivesANextState := by
  intro c s
  obtain ⟨t, runs⟩ := exec_next c s
  exact ⟨t, runs, exec_keeps_pending c runs⟩
end
